-- ==== Sys2Proof/Word.lean ====
section
/-!
DEFINITION. Word.lean: the numbers that name the part's own things. Each is a bounded index, because the bound is a
plain fact about the one number (00_scope.md, "Numbers": ports 0 to 47, slots 1 to 15, cadences 0 to 3).
Octets, keys and readings are plain numbers; their bounds stand in WellFormed.lean for what arrives from outside.
-/
namespace Sys2Proof

/-- A port, 0 to 47. -/
abbrev PortNo := Fin 48

/-- A bearer slot as an index: index `i` is slot `i + 1` (slots are numbered 1 to 15). -/
abbrev SlotNo := Fin 15

/-- A binding entry, 0 to 14 (R66). -/
abbrev EntryNo := Fin 15

/-- A cadence, 0 to 3 (R111). -/
abbrev CadenceNo := Fin 4

/-- A position of the integrity sweep, 0 to 77 (R184). -/
abbrev SweepPos := Fin 78

end Sys2Proof
end

