-- ==== Sys2Proof/Config.lean ====
section
/-!
DEFINITION. Config.lean: what the manual leaves open and no rule fixes, as constants without a body. Nothing can be
proved of their values, so a claim holds whatever they are.
-/
namespace Sys2Proof.Config

/-- Which of several expiries that fall due at one instant is taken first. The manual orders them in no rule
("Coinciding events", 00_scope.md). The argument counts the draws. DESIGN CHOICE, log entry 2. -/
opaque duePick : Nat → Nat

/-- Whether a record location (0 to 77, in the order of the sweep, R184) fails the store test of R187, when the tick
ends the store clear. The first argument counts the draws. DESIGN CHOICE, log entry 10. -/
opaque storeTestFails : Nat → Nat → Bool

/-- The phase octet of a LINE_STATE that reports no binding: the manual gives handle 0 and states no phase (R46).
DESIGN CHOICE, log entry 28. -/
opaque noPhaseOctet : Fin 256

end Sys2Proof.Config
end

