-- ==== Sys2Proof/Syntax.lean ====
section
/-!
DEFINITION. Syntax.lean: the commands the part takes, one constructor per row of spec/opcode_table.json, with the
operands the rules give them. A message from the exchange carries its tag and the fields of its body (11.7), each octet
as a number; an event carries the port, binding, channel or record it happens to.
-/
namespace Sys2Proof

/-- The address of a message: a form and its value (R6, R7, R188). `unknown` is a form octet that names no form. -/
inductive Address where
  | port (value : Nat)
  | shortKey (value : Nat)
  | longKey (value : Nat)
  | cursor
  | handle (value : Nat)
  | unknown (form : Nat)
  deriving DecidableEq, Repr

/-- The record a WRITE_LINE carries (1.5). `status` and `cls` are octets that may name no member of their sets. -/
structure LineWrite where
  status : Nat
  key : Nat
  cls : Nat
  load : Nat
  cadence : Nat
  reverse : Bool
  meterPulse : Bool
  keep : Bool
  meterReset : Bool
  deriving DecidableEq, Repr

/-- A sense channel (R148). -/
inductive Channel where
  | battery
  | temperature
  deriving DecidableEq, Repr

/-- A record location (R176, R184). -/
inductive Location where
  | line (p : PortNo)
  | slot (n : SlotNo)
  | binding (e : EntryNo)
  deriving DecidableEq, Repr

/-- The span framer's indication (R193). -/
inductive Framer where
  | aligned
  | lost
  deriving DecidableEq, Repr

/-- The reset line (R209). -/
inductive ResetLine where
  | asserted
  | released
  deriving DecidableEq, Repr

/-- The commands. The order is the table's. -/
inductive Instr where
  | offer (tag : Nat) (addr : Address) (cadence : Option Nat)
  | grant (tag : Nat) (addr : Address)
  | deny (tag : Nat) (addr : Address)
  | answer (tag : Nat) (addr : Address)
  | clear (tag : Nat) (addr : Address) (cause : Nat)
  | cleared (tag : Nat) (addr : Address)
  | meter (tag : Nat) (addr : Address) (count : Nat)
  | blockSlot (tag : Nat) (slot : Nat)
  | unblockSlot (tag : Nat) (slot : Nat)
  | testConnect (tag : Nat) (addr : Address) (force : Bool)
  | testRelease (tag : Nat) (addr : Address)
  | writeLine (tag : Nat) (addr : Address) (rec : LineWrite)
  | readLine (tag : Nat) (addr : Address)
  | ceaseLine (tag : Nat) (addr : Address)
  | clearRange (tag : Nat) (first last : Nat)
  | setCursor (tag : Nat) (port : Nat)
  | setAdvance (tag : Nat) (write read : Bool) (direction : Nat)
  | setPrefix (tag : Nat) (value : Nat)
  | setCadence (tag : Nat) (cadence : Nat) (durations : List Nat)
  | readCadence (tag : Nat) (cadence : Nat)
  | setParam (tag : Nat) (param value : Nat)
  | readParam (tag : Nat)
  | queryLine (tag : Nat) (addr : Address)
  | querySlots (tag : Nat)
  | readCounters (tag : Nat) (clearAfter : Bool)
  | resetCabinet (tag : Nat)
  /-- A frame is taken that is no message of the exchange or does not fit its type (R190). -/
  | badMessage (tag : Nat)
  /-- A length octet or a completed frame is discarded (R189). -/
  | badFrame
  /-- The loop of a port closes. `ms` is what the tick has not counted of the break it ends (log entry 4). -/
  | loopClosed (port : PortNo) (ms : Nat)
  | loopOpen (port : PortNo)
  | offHookDeclared (port : PortNo)
  | onHookDeclared (port : PortNo)
  | digitEnd (port : PortNo)
  /-- The current segment of the ringing binding `handle` runs out (R112). -/
  | segmentEnd (handle : Nat)
  | pulseEnd (port : PortNo)
  | gapEnd (port : PortNo)
  | tAcceptExpiry (handle : Nat)
  | tRingwaitExpiry (handle : Nat)
  | tRingmaxExpiry (handle : Nat)
  | tReleaseExpiry (handle : Nat)
  | tWaitExpiry (port : PortNo)
  | tTestExpiry
  | rangeStep
  | sweepStep
  /-- A reading of a channel, or no value at all (R148). -/
  | senseReading (channel : Channel) (value : Option Int)
  | storageUpset (location : Location)
  | framerLost
  | framerAligned
  | lossHoldExpiry
  | alignmentHoldExpiry
  | resetLineAsserted
  | resetLineReleased
  /-- Power is applied; the two inputs as they stand at that instant (R206). -/
  | powerOn (framer : Framer) (resetLine : ResetLine)
  /-- The store clear completes; the locations, 0 to 77, that failed its test (R187, R207). -/
  | storeClearEnd (failed : List Nat)
  | octetTaken (octet : Nat)
  deriving DecidableEq, Repr

end Sys2Proof
end

