-- ==== Sys2Proof/Machine/Types.lean ====
section
/-!
DEFINITION. Machine/Types.lean: the sets of named values of the manual (R188 lists them), the records of its blocks and
the messages the part sends (11.7). The members of each set stand in the order in which R188 lists them.
-/
namespace Sys2Proof.Machine

/-! ## Line records (LRT) -/

/-- Service state of a line (R1, R2). -/
inductive LineStatus where
  | vacant
  | active
  | outbar
  | fullbar
  | ceasing
  deriving DecidableEq, Repr

/-- Class of a line (R1). -/
inductive LineClass where
  | ordinary
  | priority
  deriving DecidableEq, Repr

/-- One line record (R1) with its stored check (R176) and its withdrawn marker (R180). -/
structure LineRecord where
  status : LineStatus
  key : Option Nat
  cls : LineClass
  load : Nat
  cadence : CadenceNo
  reverse : Bool
  meterPulse : Bool
  keep : Bool
  total : Nat
  damaged : Bool
  withdrawn : Bool
  deriving DecidableEq, Repr

/-- The way a CURSOR-addressed request moves the cursor (R199). -/
inductive CursorDirection where
  | up
  | down
  deriving DecidableEq, Repr

/-- The advance mode of the cursor (R199). -/
structure AdvanceMode where
  write : Bool
  read : Bool
  direction : CursorDirection
  deriving DecidableEq, Repr

/-! ## Ports (SUP and LIA) -/

/-- Debounced hook (2.2). -/
inductive Hook where
  | on
  | off
  deriving DecidableEq, Repr

/-- What SUP is timing on the loop: nothing, a closure from hook ON (R30), or, with hook OFF, a make or a break (R32).
A closure and a break carry how long they have lasted, in ms. -/
inductive Classifier where
  | atRest
  | closure (ms : Nat)
  | make
  | breaking (ms : Nat)
  deriving DecidableEq, Repr

/-- Supervision state (R37). -/
inductive SupState where
  | vacant
  | idle
  | waitSlot
  | bound
  | lockout
  | parked
  | test
  | quarantine
  deriving DecidableEq, Repr

/-- Drive of a port circuit (R25, R26). -/
inductive Drive where
  | feedOff
  | feedNormal
  | feedReversed
  | ringOn
  | testHeld
  deriving DecidableEq, Repr

/-- Meter-pulse injector, with the ms left of a pulse or gap (R140). -/
inductive Injector where
  | idle
  | pulse (left : Nat)
  | gap (left : Nat)
  deriving DecidableEq, Repr

/-- One port. `lineClosed` is the condition of the line itself, which the port circuit senses while it is fed (R24,
log entry 5). `testLatch` is the drive latch kept while the port is in TEST (R26); outside TEST the latch is derived
(`State.latch`, log entry 22). `makeTimer` is the make timer's count, stopped when absent; it stands still while a
break is timed (R32). -/
structure Port where
  hook : Hook
  classifier : Classifier
  pulses : Nat
  makeTimer : Option Nat
  sup : SupState
  parkPending : Bool
  testLatch : Drive
  injector : Injector
  lineClosed : Bool
  deriving DecidableEq, Repr

/-! ## Slots (SLT) -/

/-- Use of a slot (R49). -/
inductive SlotState where
  | free
  | bound
  | blocked
  | suspect
  deriving DecidableEq, Repr

/-- One slot record (R49) with its stored check (R176). -/
structure Slot where
  state : SlotState
  handle : Nat
  blockPending : Bool
  damaged : Bool
  deriving DecidableEq, Repr

/-! ## Bindings (BT) -/

/-- Direction of a call (R66). -/
inductive Direction where
  | orig
  | term
  deriving DecidableEq, Repr

/-- Phase of a binding (R68). -/
inductive Phase where
  | seizing
  | dialling
  | ringWait
  | ringing
  | connected
  | clearing
  deriving DecidableEq, Repr

/-- A digit of R34: 0 to 9, or BAD. -/
inductive Digit where
  | num (d : Fin 10)
  | bad
  deriving DecidableEq, Repr

/-- What a port yields and the early list holds (R36, R66). -/
inductive Dialled where
  | digit (d : Digit)
  | flash
  deriving DecidableEq, Repr

/-- One binding record (R66). A timer is the ms left, absent when stopped (R69). -/
structure Binding where
  handle : Nat
  port : PortNo
  slot : SlotNo
  direction : Direction
  phase : Phase
  cadence : Option CadenceNo
  early : Option (List Dialled)
  meterCount : Nat
  pendingPulses : Nat
  reversal : Bool
  tAccept : Option Nat
  tRingwait : Option Nat
  tRingmax : Option Nat
  tRelease : Option Nat
  deriving DecidableEq, Repr

/-- One entry of the binding table: empty or holding a record, with its stored check (R66, R176). -/
structure Entry where
  binding : Option Binding
  damaged : Bool
  deriving DecidableEq, Repr

/-! ## Waiting and ringing (OWQ, RGU) -/

/-- One entry of the origin wait queue, with the ms left of its T_wait (R96). -/
structure Waiting where
  port : PortNo
  left : Nat
  deriving DecidableEq, Repr

/-- One entry of the ring queue (R116). -/
structure QueueEntry where
  handle : Nat
  port : PortNo
  cadence : CadenceNo
  load : Nat
  deriving DecidableEq, Repr

/-- One entry of the ringing list (R116), with its segment index and the ms left of the segment (R112). -/
structure RingEntry where
  handle : Nat
  port : PortNo
  cadence : CadenceNo
  load : Nat
  segment : Nat
  left : Nat
  deriving DecidableEq, Repr

/-! ## Cabinet (SNS), test bus (TBC), link (SCI) -/

/-- Power state (R154). -/
inductive PowerState where
  | normal
  | conserve
  | survival
  deriving DecidableEq, Repr

/-- Thermal band (R153). -/
inductive Band where
  | cool
  | hot
  | trip
  deriving DecidableEq, Repr

/-- What SNS holds (8, R164). A held value is absent while it is "none yet". -/
structure Sense where
  heldB : Option Nat
  heldT : Option Int
  runB : Nat
  runT : Nat
  faultB : Bool
  faultT : Bool
  power : PowerState
  band : Band
  deriving DecidableEq, Repr

/-- The port on the test bus, with the ms left of T_test (R166). -/
structure TestHold where
  port : PortNo
  left : Nat
  deriving DecidableEq, Repr

/-- Link state (R193). -/
inductive Link where
  | down
  | aligning
  | up
  deriving DecidableEq, Repr

/-- Pending restart (R196). -/
inductive PendingRestart where
  | none
  | power (failed : Nat)
  | reset
  deriving DecidableEq, Repr

/-- The range walk of a CLEAR_RANGE (R18, R19, R20), with the ms left to its next step. -/
structure RangeWalk where
  tag : Nat
  pos : PortNo
  last : PortNo
  madeVacant : Nat
  madeCeasing : Nat
  linkLost : Bool
  left : Nat
  deriving DecidableEq, Repr

/-- Provisioning engine: IDLE, or BUSY by a range walk or by the store clear (R17), whose ms left it holds (R206). -/
inductive Engine where
  | idle
  | walk (w : RangeWalk)
  | storeClear (left : Nat)
  deriving DecidableEq, Repr

/-- The 17 parameters (11.4). -/
structure Params where
  g : Nat
  bFull : Nat
  bCut : Nat
  bConserve : Nat
  bSurvive : Nat
  tHot : Nat
  tTrip : Nat
  reserve : Nat
  tAccept : Nat
  tWait : Nat
  tRingwait : Nat
  tRingmax : Nat
  tRelease : Nat
  tTest : Nat
  tone : Bool
  battery : Bool
  temperature : Bool
  deriving DecidableEq, Repr

/-- The names of the parameters, in the order of R188 and of the parameter table. -/
inductive Param where
  | g
  | bFull
  | bCut
  | bConserve
  | bSurvive
  | tHot
  | tTrip
  | reserve
  | tAccept
  | tWait
  | tRingwait
  | tRingmax
  | tRelease
  | tTest
  | tone
  | battery
  | temperature
  deriving DecidableEq, Repr

/-- The 11 traffic counters (11.5), in the order of the counter table. -/
structure Counters where
  attempted : Nat
  queued : Nat
  waitTimeouts : Nat
  abandons : Nat
  noSlot : Nat
  ringSheds : Nat
  ringwaitTimeouts : Nat
  releaseTimeouts : Nat
  earlyOverflows : Nat
  badFrames : Nat
  integrityFaults : Nat
  deriving DecidableEq, Repr

/-! ## Messages from the part (11.7) -/

/-- Reply codes (R188). -/
inductive Code where
  | ok
  | clamped
  | busy
  | stale
  | wrongPhase
  | unknownLine
  | vacant
  | barred
  | lineBusy
  | parked
  | underTest
  | quarantined
  | noSlot
  | busBusy
  | duplicateKey
  | badValue
  | badMessage
  | ceasePending
  | blockPending
  | storeFault
  deriving DecidableEq, Repr

/-- Clear causes (R188). -/
inductive Cause where
  | lineClear
  | noGrant
  | noAnswer
  | noRingPower
  | test
  | storeFault
  deriving DecidableEq, Repr

/-- Kind of a record in an INTEGRITY report (R178). -/
inductive IntegrityKind where
  | line
  | slot
  | binding
  deriving DecidableEq, Repr

/-- Condition in a SENSE report (R161). -/
inductive Condition where
  | fault
  | ok
  deriving DecidableEq, Repr

/-- Cause of a RESTART report (R197). -/
inductive RestartCause where
  | power
  | reset
  | command
  | link
  deriving DecidableEq, Repr

/-- The record as LINE_DATA shows it (R8). -/
structure LineView where
  status : LineStatus
  key : Option Nat
  cls : LineClass
  load : Nat
  cadence : CadenceNo
  reverse : Bool
  meterPulse : Bool
  keep : Bool
  total : Nat
  deriving DecidableEq, Repr

/-- The fields of LINE_STATE (R46). -/
structure LineStateView where
  port : PortNo
  sup : SupState
  hook : Hook
  parkPending : Bool
  latch : Drive
  applied : Drive
  tone : Bool
  call : Nat × Option Phase
  status : Option LineStatus
  deriving DecidableEq, Repr

/-- One slot in a SLOT_LIST (R62). -/
structure SlotView where
  number : Nat
  state : SlotState
  handle : Nat
  blockPending : Bool
  connected : Option PortNo
  deriving DecidableEq, Repr

/-- The head of the first SLOT_LIST: F, R and the pool order (R62). -/
structure PoolView where
  free : Nat
  reserve : Nat
  order : List Nat
  deriving DecidableEq, Repr

/-- The fields of CADENCE_DATA (R115). -/
structure CadenceView where
  cadence : CadenceNo
  durations : List Nat
  g : Nat
  available : Nat
  committed : Nat
  queue : List Nat
  ringing : List (Nat × Nat)
  deriving DecidableEq, Repr

/-- The messages the part sends (11.7). A reply carries its request's tag; every other message has tag 0 (R191). -/
inductive Message where
  | seize (handle slot : Nat) (port : PortNo) (key : Option Nat)
  | digit (handle : Nat) (d : Digit)
  | flash (handle : Nat)
  | answered (handle : Nat)
  | clear (handle : Nat) (cause : Cause) (count : Nat)
  | cleared (tag handle count : Nat)
  | bound (tag handle slot : Nat)
  | refused (tag : Nat) (reason : Code)
  | ack (tag : Nat) (code : Code)
  | rangeDone (tag madeVacant madeCeasing : Nat)
  | lineData (tag : Nat) (port : PortNo) (sup : SupState) (hook : Hook) (record : Option LineView)
  | lineState (tag : Nat) (view : LineStateView)
  | slotList (tag : Nat) (part : Nat) (pool : Option PoolView) (slots : List SlotView)
  | cadenceData (tag : Nat) (view : CadenceView)
  | paramData (tag : Nat) (params : Params)
  | counterData (tag : Nat) (counters : Counters)
  | power (state : PowerState) (band : Band) (heldB : Option Nat) (heldT : Option Int)
  | sense (channel : Channel) (condition : Condition)
  | integrity (kind : IntegrityKind) (number handle : Nat)
  | testEnded (port : PortNo) (sup : SupState)
  | ceased (port : PortNo) (key : Option Nat) (total : Nat)
  | restart (cause : RestartCause) (failed : Nat)
  deriving DecidableEq, Repr

/-- The way to the framer (R192). `sent` is every message handed to it, oldest first (log entry 18). While `holding`
is set, the event owes a reply, or handles a failure whose report is due, and `held` keeps the messages that leave
after it (R178, log entry 14). -/
structure Outbox where
  sent : List Message
  held : List Message
  holding : Bool
  deriving DecidableEq, Repr

end Sys2Proof.Machine
end

