-- ==== Sys2Proof/Machine/Defaults.lean ====
section
/-!
DEFINITION. Machine/Defaults.lean: the durations of the manual, in ms, and the values store clear sets.
-/
namespace Sys2Proof.Machine

/-- T_seize everywhere but on an IDLE port without a call in CONSERVE or SURVIVAL (R30). -/
def seizeShort : Nat := 30
/-- T_seize on an IDLE port without a call in CONSERVE or SURVIVAL (R30). -/
def seizeLong : Nat := 200
/-- The shortest dial pulse; a shorter break is a glitch (R32). -/
def pulseMin : Nat := 15
/-- The shortest flash; a shorter break is a dial pulse or a glitch (R32). -/
def flashMin : Nat := 120
/-- A break of this length is an on-hook (R33). -/
def onHookBreak : Nat := 900
/-- The make that ends a digit (R34). -/
def digitMake : Nat := 250
/-- A meter pulse, and the gap after it (R140). -/
def meterPulseMs : Nat := 120
/-- One unit of a cadence segment (R111). -/
def cadenceUnit : Nat := 50
/-- From one step of a range walk to the next (R18). -/
def rangeStepMs : Nat := 20
/-- From one step of the sweep to the next (R184). -/
def sweepStepMs : Nat := 50
/-- The loss hold and the alignment hold (R193). -/
def linkHoldMs : Nat := 500
/-- The store clear: 78 locations of 20 ms (R206). -/
def storeClearMs : Nat := 1560
/-- One second, the unit of the call and wait timers (11.4). -/
def secondMs : Nat := 1000
/-- One minute, the unit of T_test (11.4). -/
def minuteMs : Nat := 60000

/-- Top value of a traffic counter and of a meter count (11.5, R66). -/
def countMax : Nat := 65535
/-- Top value of the pending pulses (R66). -/
def pulsesMax : Nat := 255
/-- Top value of a meter total (R1). -/
def totalMax : Nat := 16777215

/-- Saturating sum ("Saturating counts", 00_scope.md). -/
def satAdd (top a b : Nat) : Nat := min (a + b) top

/-- Clamping ("Clamping", 00_scope.md). -/
def clamp (lo hi v : Nat) : Nat := max lo (min v hi)

/-- A record of status VACANT with default fields and meter total 0 (R1, R22). -/
def LineRecord.initial : LineRecord :=
  { status := .vacant, key := none, cls := .ordinary, load := 8, cadence := 0, reverse := false, meterPulse := false,
    keep := false, total := 0, damaged := false, withdrawn := false }

/-- A port as store clear sets it (R47), the line open (log entry 9). -/
def Port.initial : Port :=
  { hook := .on, classifier := .atRest, pulses := 0, makeTimer := none, sup := .vacant, parkPending := false,
    testLatch := .feedOff, injector := .idle, lineClosed := false }

/-- A slot as store clear sets it (R63). -/
def Slot.initial : Slot := { state := .free, handle := 0, blockPending := false, damaged := false }

/-- A slot out of service after a failure (R59). -/
def Slot.outOfService : Slot := { state := .suspect, handle := 0, blockPending := false, damaged := false }

/-- An empty entry with a fresh check (R92). -/
def Entry.initial : Entry := { binding := none, damaged := false }

/-- No advance (R199). -/
def AdvanceMode.initial : AdvanceMode := { write := false, read := false, direction := .up }

/-- The default cadences (R111). -/
def defaultCadences : Vector (List Nat) 4 :=
  #v[[8, 4, 8, 40], [20, 80], [16, 8, 16, 80], [5, 5, 5, 5, 5, 60]]

/-- SNS after store clear (R164). -/
def Sense.initial : Sense :=
  { heldB := none, heldT := none, runB := 0, runT := 0, faultB := false, faultT := false, power := .normal,
    band := .cool }

/-- The defaults of the parameter table (11.4). -/
def Params.initial : Params :=
  { g := 40, bFull := 520, bCut := 440, bConserve := 480, bSurvive := 450, tHot := 60, tTrip := 75, reserve := 1,
    tAccept := 3, tWait := 10, tRingwait := 8, tRingmax := 180, tRelease := 4, tTest := 10, tone := true,
    battery := true, temperature := true }

/-- Every counter at 0 (R204). -/
def Counters.zero : Counters :=
  { attempted := 0, queued := 0, waitTimeouts := 0, abandons := 0, noSlot := 0, ringSheds := 0, ringwaitTimeouts := 0,
    releaseTimeouts := 0, earlyOverflows := 0, badFrames := 0, integrityFaults := 0 }

end Sys2Proof.Machine
end

