-- ==== Sys2Proof/Machine/State.lean ====
section
/-!
DEFINITION. Machine/State.lean: the whole state of the part, block by block as 00_scope.md lists its owners, the
reasons a step can stop, and the state right after reset.
-/
namespace Sys2Proof.Machine

/-- The state of the part. `pending` is the queue of commands, first in, first out; `draws` counts the free values
drawn (log entries 2 and 10); both are the model's own. -/
structure State where
  pending : List Instr
  draws : Nat
  /-- SUP and LIA, per port. -/
  ports : Vector Port 48
  /-- LRT: the line records. -/
  lines : Vector LineRecord 48
  /-- LRT: the key index, held by port: the key whose entry names the port (R4, log entry 22). -/
  keyIndex : Vector (Option Nat) 48
  /-- LRT: the key prefix (R5). -/
  keyPrefix : Nat
  /-- LRT: the cursor and its advance mode (R198, R199). -/
  cursor : PortNo
  advance : AdvanceMode
  /-- SLT: the slot records and the free pool, head first (R49, R50). -/
  slots : Vector Slot 15
  pool : List SlotNo
  /-- BT: the binding table and the next-handle counter (R66, R67). -/
  entries : Vector Entry 15
  nextHandle : Nat
  /-- OWQ, oldest first (R96). -/
  owq : List Waiting
  /-- RGU: the cadence table, the ring queue (head first), the ringing list (oldest first), L and A (6). -/
  cadences : Vector (List Nat) 4
  ringQueue : List QueueEntry
  ringList : List RingEntry
  committed : Nat
  available : Nat
  /-- SNS (8). -/
  sense : Sense
  /-- TBC: the connected port with its T_test (R166). -/
  bus : Option TestHold
  /-- ICK: the sweep position and the ms left to its next step (R184). -/
  sweepPos : SweepPos
  sweepLeft : Nat
  /-- SCI (11). A hold is the ms left, absent when it does not run. -/
  link : Link
  framer : Framer
  lossHold : Option Nat
  alignHold : Option Nat
  resetLine : ResetLine
  pendingRestart : PendingRestart
  assembly : List Nat
  engine : Engine
  params : Params
  counters : Counters
  out : Outbox
  deriving DecidableEq, Repr

/-- What stops the machine: nothing does. The manual answers a refused request with a reply and handles a damaged
record by its failure actions, and the part goes on (log entry 21). -/
inductive Fault where
  deriving DecidableEq, Repr

/-- The reasons a command is refused. -/
inductive Refusal where
  /-- Raised by `exec` alone, for a command the model gives no meaning. Safe: the run stops. No arm raises it. -/
  | notModelled (mnemonic : String)
  deriving DecidableEq, Repr

/-- The answer of a meaning. -/
abbrev Result := Host.Outcome State Fault Refusal

/-- The part right after the store clear of a power-on, every location passing (R207), with no command waiting. The
inputs, which the part only records, stand at LOST, released and open loops (log entry 9). -/
def State.reset : State :=
  { pending := []
    draws := 0
    ports := Vector.replicate 48 Port.initial
    lines := Vector.replicate 48 LineRecord.initial
    keyIndex := Vector.replicate 48 none
    keyPrefix := 0
    cursor := 0
    advance := AdvanceMode.initial
    slots := Vector.replicate 15 Slot.initial
    pool := List.finRange 15
    entries := Vector.replicate 15 Entry.initial
    nextHandle := 1
    owq := []
    cadences := defaultCadences
    ringQueue := []
    ringList := []
    committed := 0
    available := 0
    sense := Sense.initial
    bus := none
    sweepPos := 0
    sweepLeft := sweepStepMs
    link := .down
    framer := .lost
    lossHold := none
    alignHold := none
    resetLine := .released
    pendingRestart := .power 0
    assembly := []
    engine := .idle
    params := Params.initial
    counters := Counters.zero
    out := { sent := [], held := [], holding := false } }

end Sys2Proof.Machine
end

