-- ==== Sys2Proof/Machine/Access.lean ====
section
/-!
DEFINITION. Machine/Access.lean: the named reads and writes of the record tables, the counters and the way out. Every
block reads and writes the state through these.
-/
namespace Sys2Proof.Machine

/-- Every port, 0 to 47. -/
def allPorts : List PortNo := List.finRange 48

/-- Every slot, in slot-number order. -/
def allSlots : List SlotNo := List.finRange 15

/-- Every binding entry, 0 to 14. -/
def allEntries : List EntryNo := List.finRange 15

/-- The number of a slot, 1 to 15. -/
def slotNumber (n : SlotNo) : Nat := n.val + 1

/-- The slot of a slot number, absent outside 1 to 15 (R56, R57). -/
def slotOfNumber (n : Nat) : Option SlotNo :=
  if h : 1 ≤ n ∧ n ≤ 15 then some ⟨n - 1, by omega⟩ else none

/-! ## Records -/

def State.port (s : State) (p : PortNo) : Port := s.ports[p]

def State.setPort (s : State) (p : PortNo) (q : Port) : State := { s with ports := s.ports.set p q }

def State.line (s : State) (p : PortNo) : LineRecord := s.lines[p]

/-- Writes a line record as it is given: its check and its marker too. -/
def State.setLine (s : State) (p : PortNo) (r : LineRecord) : State := { s with lines := s.lines.set p r }

/-- The part writes a line record: the check is written afresh (R1, R176), and a quarantine of it ends (R180). -/
def State.writeLine (s : State) (p : PortNo) (r : LineRecord) : State :=
  s.setLine p { r with damaged := false, withdrawn := false }

def State.slot (s : State) (n : SlotNo) : Slot := s.slots[n]

def State.setSlot (s : State) (n : SlotNo) (r : Slot) : State := { s with slots := s.slots.set n r }

def State.entry (s : State) (e : EntryNo) : Entry := s.entries[e]

def State.setEntry (s : State) (e : EntryNo) (r : Entry) : State := { s with entries := s.entries.set e r }

/-- The part writes a binding into an entry, or empties it: the check is written afresh (R66, R176). -/
def State.writeEntry (s : State) (e : EntryNo) (b : Option Binding) : State :=
  s.setEntry e { binding := b, damaged := false }

/-- The key-index entry of a port (R4). -/
def State.indexKey (s : State) (p : PortNo) : Option Nat := s.keyIndex[p]

def State.setIndex (s : State) (p : PortNo) (k : Option Nat) : State := { s with keyIndex := s.keyIndex.set p k }

/-- The port whose key-index entry is this key (R6). -/
def State.portOfKey (s : State) (k : Nat) : Option PortNo :=
  allPorts.find? fun p => decide (s.indexKey p = some k)

/-! ## Live bindings -/

/-- The entry and the binding that satisfy a test, lowest entry first. Only the fields are looked at, whatever the
stored check says: a damaged record's fields may be used to find its partner (10). -/
def State.findBinding (s : State) (test : Binding → Bool) : Option (EntryNo × Binding) :=
  allEntries.findSome? fun e =>
    match (s.entry e).binding with
    | some b => if test b then some (e, b) else none
    | none => none

/-- The live binding of a handle (R70, check 1). -/
def State.byHandle (s : State) (h : Nat) : Option (EntryNo × Binding) :=
  s.findBinding fun b => decide (b.handle = h)

/-- The live binding of a port (R66: at most one). -/
def State.call (s : State) (p : PortNo) : Option (EntryNo × Binding) :=
  s.findBinding fun b => decide (b.port = p)

/-- The port holds a binding in CLEARING (R38, check 4; R77, check 8; R99). -/
def State.hasClearing (s : State) (p : PortNo) : Bool :=
  match s.call p with
  | some (_, b) => decide (b.phase = .clearing)
  | none => false

/-- The port waits in the origin wait queue (R96). -/
def State.waiting (s : State) (p : PortNo) : Bool := s.owq.any fun w => decide (w.port = p)

/-! ## Counters -/

/-- A counter rises by 1 and holds at its top (11.5). -/
def bump (n : Nat) : Nat := satAdd countMax n 1

/-- A record check failure is found: the integrity faults counter rises (R177). -/
def State.countFault (s : State) : State :=
  { s with counters := { s.counters with integrityFaults := bump s.counters.integrityFaults } }

/-! ## The way out (R192) -/

/-- A message leaves, or waits while the event holds its later messages back (R178). While the link is not UP it is
dropped (R192). -/
def State.send (s : State) (m : Message) : State :=
  if s.link = .up then
    if s.out.holding then { s with out := { s.out with held := s.out.held ++ [m] } }
    else { s with out := { s.out with sent := s.out.sent ++ [m] } }
  else s

/-- A message leaves at once: a CLEAR goes at the moment its cause is handled (R178). -/
def State.sendNow (s : State) (m : Message) : State :=
  if s.link = .up then { s with out := { s.out with sent := s.out.sent ++ [m] } } else s

/-- Later messages of the event are held back until `release` (R178). -/
def State.hold (s : State) : State := { s with out := { s.out with holding := true } }

/-- The messages held back leave, in order. -/
def State.release (s : State) : State :=
  { s with out := { sent := s.out.sent ++ s.out.held, held := [], holding := false } }

/-- The reply of the event leaves, and the messages held back follow it (R178). -/
def State.reply (s : State) (m : Message) : State := (s.sendNow m).release

/-- An ACK with its tag and code (R191). -/
def State.ack (s : State) (tag : Nat) (code : Code) : State := s.reply (.ack tag code)

/-- Runs the handling of a failure: its own reports come before every report and message that the handling makes, in
the order the failures are found (R178, log entry 14). -/
def State.reporting (s : State) (own : List Message) (handle : State → State) : State :=
  if s.out.holding then handle (own.foldl State.send s)
  else (handle (own.foldl State.send s.hold)).release

/-- Runs something whose messages are all discarded: link loss and warm reset send nothing (R178, R194, R208). -/
def State.silently (s : State) (f : State → State) : State := { f s with out := s.out }

end Sys2Proof.Machine
end

