-- ==== Sys2Proof/Machine/Flags.lean ====
section
/-!
DEFINITION. Machine/Flags.lean: derived state. It follows the state it is derived from at once ("Derived state",
00_scope.md): the drive latch and the applied drive, the tone, the cross-connect, T_seize, parkability, the thermal
band, the available capacity and the power state of a reading.
-/
namespace Sys2Proof.Machine

/-! ## Ports -/

/-- The latch and the applied drive of this supervision state are FEED_OFF (R25). -/
def SupState.fed : SupState → Bool
  | .vacant => false
  | .parked => false
  | _ => true

/-- The drive of a RINGING binding: RING_ON in an ON segment, that is an even index (R111, R112). -/
def State.ringDrive (s : State) (handle : Nat) : Drive :=
  match s.ringList.find? fun r => decide (r.handle = handle) with
  | some r => if r.segment % 2 = 0 then .ringOn else .feedNormal
  | none => .feedNormal

/-- The latch of a BOUND port, by the phase of its binding (R25). -/
def State.boundDrive (s : State) (p : PortNo) : Drive :=
  match s.call p with
  | some (_, b) =>
    match b.phase with
    | .ringing => s.ringDrive b.handle
    | .connected => if b.reversal then .feedReversed else .feedNormal
    | _ => .feedNormal
  | none => .feedNormal

/-- The drive latch (R25); in TEST it keeps the drive it held when the port entered TEST (R26). -/
def State.latch (s : State) (p : PortNo) : Drive :=
  match (s.port p).sup with
  | .test => (s.port p).testLatch
  | .vacant => .feedOff
  | .parked => .feedOff
  | .bound => s.boundDrive p
  | _ => .feedNormal

/-- The applied drive: the latch, or TEST_HELD in TEST (R25, R26). -/
def State.applied (s : State) (p : PortNo) : Drive :=
  match (s.port p).sup with
  | .test => .testHeld
  | _ => s.latch p

/-- Congestion tone on the line (R27). -/
def State.tone (s : State) (p : PortNo) : Bool :=
  decide ((s.port p).sup = .lockout) && s.params.tone && decide (s.sense.power = .normal)

/-- The hook as reported: ON for a PARKED or VACANT port (R8, R43, R46). -/
def State.reportedHook (s : State) (p : PortNo) : Hook :=
  match (s.port p).sup with
  | .vacant => .on
  | .parked => .on
  | _ => (s.port p).hook

/-- The closure needed at this instant to declare an off-hook (R30). -/
def State.tSeize (s : State) (p : PortNo) : Nat :=
  if (s.call p).isSome then seizeShort
  else if s.sense.power = .normal then seizeShort
  else if (s.port p).sup = .idle then seizeLong
  else seizeShort

/-- The record may be parked: class ORDINARY and keep-in-survival clear (R11, R156). -/
def LineRecord.parkableClass (r : LineRecord) : Bool := decide (r.cls = .ordinary) && !r.keep

/-- The port is parkable now, its record being in use (R11, R48, R172). -/
def State.parkable (s : State) (p : PortNo) : Bool :=
  decide (s.sense.power = .survival) && (s.line p).parkableClass

/-- The meter-pulse injector's conditions hold for this port and phase (R140). -/
def State.mayPulse (s : State) (p : PortNo) (phase : Phase) : Bool :=
  decide ((s.port p).hook = .off) && !decide ((s.port p).sup = .test) &&
    (decide (phase = .dialling) || decide (phase = .connected))

/-! ## Slots -/

/-- The port a slot is connected to (R55). -/
def State.connected (s : State) (n : SlotNo) : Option PortNo :=
  if (s.slot n).state = .bound then
    match s.byHandle (s.slot n).handle with
    | some (_, b) =>
      if b.phase = .dialling ∨ b.phase = .connected then some b.port else none
    | none => none
  else none

/-- Admission of a class against F, the length of the pool (R53). -/
def State.admitted (s : State) (c : LineClass) : Bool :=
  match c with
  | .priority => decide (1 ≤ s.pool.length)
  | .ordinary => decide (s.params.reserve < s.pool.length)

/-! ## Cabinet -/

/-- The battery reading as RGU takes it; absent when it is "none yet" (R120). -/
def State.batteryTaken (s : State) : Option Nat :=
  if s.params.battery then s.sense.heldB else some s.params.bFull

/-- The temperature as RGU takes it; absent stands for a value below T_hot (R120). -/
def State.temperatureTaken (s : State) : Option Int :=
  if s.params.temperature then s.sense.heldT else none

/-- The thermal band (R121, R153). -/
def State.bandNow (s : State) : Band :=
  match s.temperatureTaken with
  | none => .cool
  | some t =>
    if t < (s.params.tHot : Int) then .cool
    else if t < (s.params.tTrip : Int) then .hot
    else .trip

/-- A_b, the battery-derated capacity of a battery reading (R121, steps 1 to 3). -/
def Params.batteryDerated (p : Params) (b : Nat) : Nat :=
  p.g * min (b - p.bCut) (p.bFull - p.bCut) / (p.bFull - p.bCut)

/-- A, computed from the inputs as they stand (R120, R121). -/
def State.capacity (s : State) : Nat :=
  match s.batteryTaken with
  | none => 0
  | some b =>
    match s.bandNow with
    | .cool => s.params.batteryDerated b
    | .hot =>
      s.params.batteryDerated b * ((s.params.tTrip : Int) - (s.temperatureTaken.getD 0)).toNat /
        (s.params.tTrip - s.params.tHot)
    | .trip => 0

/-- The power state after a valid battery reading, from the state before it (R154). -/
def Params.nextPower (p : Params) (before : PowerState) (b : Nat) : PowerState :=
  match before with
  | .normal =>
    if b < p.bSurvive then .survival else if b < p.bConserve then .conserve else .normal
  | .conserve =>
    if b < p.bSurvive then .survival else if p.bConserve + 10 ≤ b then .normal else .conserve
  | .survival =>
    if p.bConserve + 10 ≤ b then .normal else if p.bSurvive + 10 ≤ b then .conserve else .survival

end Sys2Proof.Machine
end

