-- ==== Sys2Proof/Machine/Operands.lean ====
section
/-!
DEFINITION. Machine/Operands.lean: the operand forms of the messages: addresses and their resolution (R6, R7), and the
octets that name a member of a set (R188).
-/
namespace Sys2Proof.Machine

/-- What an address comes to: a port, or the reply code of its failure. -/
inductive Resolved where
  | port (p : PortNo)
  | fails (code : Code)
  deriving DecidableEq, Repr

/-- A port number of a message, 0 to 255; over 47 names no port (R6). -/
def portOfNumber (n : Nat) : Option PortNo := if h : n < 48 then some ⟨n, h⟩ else none

/-- A port found, or UNKNOWN_LINE (R6). -/
def Resolved.ofOption : Option PortNo → Resolved
  | some p => .port p
  | none => .fails .unknownLine

/-- Resolution of an address as the state stands (R6). HANDLE and a form that names none are answered BAD_VALUE by
every message that names a line (R7). -/
def State.resolve (s : State) : Address → Resolved
  | .port v => .ofOption (portOfNumber v)
  | .shortKey v => .ofOption (s.portOfKey (s.keyPrefix * 65536 + v))
  | .longKey v => .ofOption (s.portOfKey v)
  | .cursor => .port s.cursor
  | .handle _ => .fails .badValue
  | .unknown _ => .fails .badValue

/-- Resolution for OFFER, QUERY_LINE, TEST_CONNECT and TEST_RELEASE: the CURSOR form is BAD_VALUE (R7). -/
def State.resolveNoCursor (s : State) : Address → Resolved
  | .cursor => .fails .badValue
  | a => s.resolve a

/-- Resolution for WRITE_LINE: PORT and CURSOR alone (R7, R9). -/
def State.resolveForWrite (s : State) : Address → Resolved
  | .shortKey _ => .fails .badValue
  | .longKey _ => .fails .badValue
  | a => s.resolve a

/-- The address is of the CURSOR form (R200). -/
def isCursorForm : Address → Bool
  | .cursor => true
  | _ => false

/-- The status a WRITE_LINE may carry: VACANT 0, ACTIVE 1, OUTBAR 2, FULLBAR 3; CEASING is refused, and a value
beyond names no member (R9, check 4; R188). -/
def writtenStatus : Nat → Option LineStatus
  | 0 => some .vacant
  | 1 => some .active
  | 2 => some .outbar
  | 3 => some .fullbar
  | _ => none

/-- The class an octet names (R188). -/
def classOfOctet : Nat → Option LineClass
  | 0 => some .ordinary
  | 1 => some .priority
  | _ => none

/-- The direction an octet names (R188, R199). -/
def directionOfOctet : Nat → Option CursorDirection
  | 0 => some .up
  | 1 => some .down
  | _ => none

/-- The parameters in the order of R188. -/
def allParams : List Param :=
  [.g, .bFull, .bCut, .bConserve, .bSurvive, .tHot, .tTrip, .reserve, .tAccept, .tWait, .tRingwait, .tRingmax,
    .tRelease, .tTest, .tone, .battery, .temperature]

/-- The parameter an octet names (R188, R201). -/
def paramOfOctet (n : Nat) : Option Param := allParams[n]?

/-- A cadence number clamped to 0 to 3 (R10, R78). -/
def clampCadence (n : Nat) : CadenceNo := ⟨min n 3, by omega⟩

/-- A cadence number of SET_CADENCE and READ_CADENCE; over 3 names none (R113, R115). -/
def cadenceOfNumber (n : Nat) : Option CadenceNo := if h : n < 4 then some ⟨n, h⟩ else none

/-- The range of a parameter (11.4); an on-off parameter is 0 or 1 (R201). -/
def Param.range : Param → Nat × Nat
  | .g => (8, 255)
  | .bFull => (300, 700)
  | .bCut => (200, 650)
  | .bConserve => (300, 650)
  | .bSurvive => (250, 600)
  | .tHot => (0, 90)
  | .tTrip => (10, 100)
  | .reserve => (0, 4)
  | .tAccept => (1, 10)
  | .tWait => (1, 30)
  | .tRingwait => (1, 30)
  | .tRingmax => (30, 600)
  | .tRelease => (1, 10)
  | .tTest => (1, 60)
  | .tone => (0, 1)
  | .battery => (0, 1)
  | .temperature => (0, 1)

/-- A value clamped to its parameter's range (R201). -/
def Param.clampValue (p : Param) (v : Nat) : Nat := clamp p.range.1 p.range.2 v

/-- An on-off parameter as a number: 0 off, 1 on (R201, R203). -/
def ofFlag (b : Bool) : Nat := if b then 1 else 0

/-- The value of a parameter. -/
def Params.get (q : Params) : Param → Nat
  | .g => q.g
  | .bFull => q.bFull
  | .bCut => q.bCut
  | .bConserve => q.bConserve
  | .bSurvive => q.bSurvive
  | .tHot => q.tHot
  | .tTrip => q.tTrip
  | .reserve => q.reserve
  | .tAccept => q.tAccept
  | .tWait => q.tWait
  | .tRingwait => q.tRingwait
  | .tRingmax => q.tRingmax
  | .tRelease => q.tRelease
  | .tTest => q.tTest
  | .tone => ofFlag q.tone
  | .battery => ofFlag q.battery
  | .temperature => ofFlag q.temperature

/-- The parameters with one value replaced. -/
def Params.set (q : Params) (p : Param) (v : Nat) : Params :=
  match p with
  | .g => { q with g := v }
  | .bFull => { q with bFull := v }
  | .bCut => { q with bCut := v }
  | .bConserve => { q with bConserve := v }
  | .bSurvive => { q with bSurvive := v }
  | .tHot => { q with tHot := v }
  | .tTrip => { q with tTrip := v }
  | .reserve => { q with reserve := v }
  | .tAccept => { q with tAccept := v }
  | .tWait => { q with tWait := v }
  | .tRingwait => { q with tRingwait := v }
  | .tRingmax => { q with tRingmax := v }
  | .tRelease => { q with tRelease := v }
  | .tTest => { q with tTest := v }
  | .tone => { q with tone := decide (v ≠ 0) }
  | .battery => { q with battery := decide (v ≠ 0) }
  | .temperature => { q with temperature := decide (v ≠ 0) }

/-- The three ordered pairs of 11.4 are in order. -/
def Params.ordered (q : Params) : Bool :=
  decide (q.bCut < q.bFull) && decide (q.bSurvive < q.bConserve) && decide (q.tHot < q.tTrip)

end Sys2Proof.Machine
end

