-- ==== Sys2Proof/Machine/Ops.lean ====
section
/-!
DEFINITION. Machine/Ops.lean: the shared operations below the failure actions: a port moves between supervision states,
a slot leaves and joins the pool, an entry leaves a queue, a binding is created, a cease completes.
-/
namespace Sys2Proof.Machine

/-! ## A port changes its supervision state -/

/-- The port takes a supervision state. Losing the feed forces the hook ON and discards what is being timed; gaining it
looks at the loop, and a closed loop starts closure timing (R31). -/
def Port.place (q : Port) (st : SupState) : Port :=
  if st.fed then
    if q.sup.fed then { q with sup := st }
    else { q with sup := st, classifier := if q.lineClosed then .closure 0 else .atRest }
  else { q with sup := st, hook := .on, classifier := .atRest, pulses := 0, makeTimer := none }

/-- The port is made IDLE, or PARKED with its marker cleared when park-pending is set (R44). -/
def Port.toIdle (q : Port) : Port :=
  if q.parkPending then { q with parkPending := false }.place .parked else q.place .idle

/-- The port is placed by its hook: LOCKOUT, or IDLE by R44 (R45). -/
def Port.settle (q : Port) : Port :=
  match q.hook with
  | .off => q.place .lockout
  | .on => q.toIdle

def State.place (s : State) (p : PortNo) (st : SupState) : State := s.setPort p ((s.port p).place st)

def State.toIdle (s : State) (p : PortNo) : State := s.setPort p (s.port p).toIdle

/-- A BOUND port whose binding ceases to exist is settled by its hook; another port keeps its state (R45). -/
def State.settle (s : State) (p : PortNo) : State :=
  if (s.port p).sup = .bound then s.setPort p (s.port p).settle else s

/-- The park-pending marker is written (R44). -/
def State.mark (s : State) (p : PortNo) (b : Bool) : State :=
  s.setPort p { s.port p with parkPending := b }

/-- The port goes to QUARANTINE, but a port in TEST stays; the marker is cleared (R179, step 4). -/
def State.quarantine (s : State) (p : PortNo) : State :=
  if (s.port p).sup = .test then s.mark p false else (s.mark p false).place p .quarantine

/-- The port's meter-pulse injector goes to IDLE (R142). -/
def State.stopInjector (s : State) (p : PortNo) : State := s.setPort p { s.port p with injector := .idle }

/-! ## Queues -/

/-- The port's entry, if any, leaves the origin wait queue; its T_wait goes with it (R96). -/
def State.leaveQueue (s : State) (p : PortNo) : State :=
  { s with owq := s.owq.filter fun w => !decide (w.port = p) }

/-- The entry of a handle leaves the ring queue (R117). -/
def State.dropQueued (s : State) (h : Nat) : State :=
  { s with ringQueue := s.ringQueue.filter fun q => !decide (q.handle = h) }

/-- The entry of a handle leaves the ringing list, and L falls by its load (R118, R119). -/
def State.dropRinging (s : State) (h : Nat) : State :=
  { s with
    ringList := s.ringList.filter fun r => !decide (r.handle = h)
    committed := s.committed - ((s.ringList.filter fun r => decide (r.handle = h)).map (·.load)).sum }

/-- The binding of a handle leaves whichever list holds it; what follows a removal runs if one held it (R129). -/
def State.leaveRinging (s : State) (after : State → State) (h : Nat) : State :=
  if (s.ringList.any fun r => decide (r.handle = h)) || (s.ringQueue.any fun q => decide (q.handle = h)) then
    after ((s.dropQueued h).dropRinging h)
  else s

/-! ## Slots -/

/-- A slot leaves the pool, wherever it stands (R50). -/
def State.leavePool (s : State) (n : SlotNo) : State :=
  { s with pool := s.pool.filter fun m => !decide (m = n) }

/-- A slot becomes SUSPECT, its record written afresh, and leaves the pool (R59, R60). -/
def State.suspect (s : State) (n : SlotNo) : State := (s.leavePool n).setSlot n Slot.outOfService

/-- A slot becomes FREE, its record written afresh, and joins the pool at the tail (R50). -/
def State.freeSlot (s : State) (n : SlotNo) : State :=
  let t := s.setSlot n Slot.initial
  { t with pool := t.pool ++ [n] }

/-- A slot becomes BLOCKED, its record written afresh (R52, R56). -/
def State.blockSlot (s : State) (n : SlotNo) : State :=
  s.setSlot n { state := .blocked, handle := 0, blockPending := false, damaged := false }

/-- The return of a slot whose record reads good: BLOCKED by its marker, else FREE at the pool tail (R52). -/
def State.returnGoodSlot (s : State) (n : SlotNo) : State :=
  if (s.slot n).blockPending then s.blockSlot n else s.freeSlot n

/-! ## Ceasing -/

/-- The record of a ceased line: VACANT with defaults, the meter total kept (R13). -/
def LineRecord.ceased (r : LineRecord) : LineRecord := { LineRecord.initial with total := r.total }

/-- The record becomes VACANT and its key leaves the index (R13). -/
def State.vacate (s : State) (p : PortNo) : State := (s.writeLine p (s.line p).ceased).setIndex p none

/-- The line record is withdrawn: the marker is set and the key leaves the index (R179 step 1, R180); a waiting port
leaves the queue (step 2). -/
def State.withdraw (s : State) (p : PortNo) : State :=
  ((s.setLine p { s.line p with withdrawn := true }).setIndex p none).leaveQueue p

/-- The line failure actions when a retirement finds the damage, at its fold (R144) or at its deferred cease (R15): the
binding is retiring already, and the report carries its handle (R179, log entry 16). -/
def State.lineActionsRetiring (s : State) (p : PortNo) (handle : Nat) : State :=
  (s.countFault.withdraw p).reporting [.integrity .line p.val handle] fun u => u.quarantine p

/-- A deferred cease at the retirement of the port's binding (R15, R89 step 7). Nothing completes on a withdrawn record.
The cease reads the record for its key (R3): when it is found damaged, the line failure actions take place instead.
`handle` is the retiring binding's, 0 when it was not recovered (log entry 16). -/
def State.completeCease (s : State) (p : PortNo) (handle : Nat) : State :=
  let r := s.line p
  if r.status = .ceasing ∧ r.withdrawn = false then
    if r.damaged then s.lineActionsRetiring p handle
    else
      let t := ((s.leaveQueue p).vacate p).mark p false
      let u := if (t.port p).sup = .test then t else t.place p .vacant
      u.send (.ceased p r.key r.total)
  else s

/-! ## Handles -/

/-- The handle after one, wrapping 255 to 1 (R67). -/
def nextOf (h : Nat) : Nat := if h < 255 then h + 1 else 1

/-- The first handle from a value on that is neither live nor 0 (R67); the search ends within 16 values. -/
def State.searchHandle (s : State) : Nat → Nat → Nat
  | 0, h => h
  | fuel + 1, h => if h = 0 ∨ (s.byHandle h).isSome then s.searchHandle fuel (nextOf h) else h

/-- The handle of the next binding (R67). -/
def State.chooseHandle (s : State) : Nat := s.searchHandle 16 s.nextHandle

/-- The lowest-numbered empty entry (R67). -/
def State.emptyEntry (s : State) : Option EntryNo := allEntries.find? fun e => (s.entry e).binding.isNone

/-- A binding is created on the slot at the pool head: the slot becomes BOUND and names it, the entry is written, the
counter moves on, the port becomes BOUND (R51, R67, R71, R78). R67 shows that an empty entry is always at hand; in a
state where none is, nothing is created (log entry 17). -/
def State.create (s : State) (n : SlotNo) (make : Nat → Binding) (p : PortNo) (andThen : Binding → State → State) :
    State :=
  match s.emptyEntry with
  | none => s
  | some e =>
    let b := make s.chooseHandle
    let t := (s.leavePool n).setSlot n { state := .bound, handle := b.handle, blockPending := false, damaged := false }
    let u := { t.writeEntry e (some b) with nextHandle := nextOf b.handle }
    andThen b (u.place p .bound)

/-- The SEIZING binding of an origination (R71). -/
def State.originating (s : State) (p : PortNo) (n : SlotNo) (h : Nat) : Binding :=
  { handle := h, port := p, slot := n, direction := .orig, phase := .seizing, cadence := none, early := some [],
    meterCount := 0, pendingPulses := 0, reversal := false, tAccept := some (s.params.tAccept * secondMs),
    tRingwait := none, tRingmax := none, tRelease := none }

/-- The RING_WAIT binding of an accepted OFFER (R78). -/
def State.terminating (s : State) (p : PortNo) (n : SlotNo) (c : CadenceNo) (h : Nat) : Binding :=
  { handle := h, port := p, slot := n, direction := .term, phase := .ringWait, cadence := some c, early := none,
    meterCount := 0, pendingPulses := 0, reversal := false, tAccept := none,
    tRingwait := some (s.params.tRingwait * secondMs), tRingmax := some (s.params.tRingmax * secondMs),
    tRelease := none }

/-- An origination binding is created and SEIZE is sent (R71). -/
def State.seize (s : State) (p : PortNo) (n : SlotNo) : State :=
  s.create n (s.originating p n) p fun b t => t.send (.seize b.handle (slotNumber n) p (t.line p).key)

end Sys2Proof.Machine
end

