-- ==== Sys2Proof/Machine/Budget.lean ====
section
/-!
DEFINITION. Machine/Budget.lean: the retirement of a binding by a binding failure (R90, R95, R181), the ring start and
the shed (R83, R126, R128) and the budget pass (R124). They stand together because a pass may find a damaged entry
(R182).
-/
namespace Sys2Proof.Machine

/-- The retirement of a binding by the binding-failure kind: out of the ringing lists, no fold, pulses discarded, slot
SUSPECT, entry emptied, port settled, a deferred cease completed with the total as stored (R90, R95, R181 step 3).
`after` is what follows a removal from a ringing list; `handle` is the recovered handle, or 0. -/
def State.retireFailed (s : State) (after : State → State) (e : EntryNo) (b : Binding) (handle : Nat) : State :=
  let t := (s.leaveRinging after b.handle).stopInjector b.port
  let u := (t.suspect b.slot).writeEntry e none
  (u.settle b.port).completeCease b.port handle

/-- The binding failure actions on an entry found damaged (R181). `outer handle` are the reports of a failure within
which this one is found; they come before its own (R182). -/
def State.failEntry (s : State) (after : State → State) (outer : Nat → List Message) (e : EntryNo) : State :=
  let s := s.countFault
  match (s.entry e).binding with
  | none => s.reporting (outer 0 ++ [.integrity .binding e.val 0]) fun t => t.writeEntry e none
  | some b =>
    if (s.slot b.slot).damaged then
      s.countFault.reporting
        (outer 0 ++ [.integrity .binding e.val 0, .integrity .slot (slotNumber b.slot) 0]) fun t =>
          t.retireFailed after e b 0
    else
      let h := (s.slot b.slot).handle
      (s.sendNow (.clear h .storeFault b.meterCount)).reporting (outer h ++ [.integrity .binding e.val h]) fun t =>
        t.retireFailed after e b h

/-- The last binding of the ringing list is shed: it goes to the head of the ring queue with a new T_ringwait. A damaged
entry retires instead (R126, R182). -/
def State.shedTail (s : State) (r : RingEntry) : State :=
  match s.byHandle r.handle with
  | none => s.dropRinging r.handle
  | some (e, b) =>
    if (s.entry e).damaged then s.failEntry id (fun _ => []) e
    else
      let t := s.dropRinging r.handle
      let u := { t with
        ringQueue := { handle := r.handle, port := r.port, cadence := r.cadence, load := r.load } :: t.ringQueue
        counters := { t.counters with ringSheds := bump t.counters.ringSheds } }
      u.writeEntry e (some { b with phase := .ringWait, tRingwait := some (s.params.tRingwait * secondMs) })

/-- The shedding step (R125), as long as L stands above A and more than a lone ringer rings, or A is 0. -/
def State.shedStep (s : State) : Nat → State
  | 0 => s
  | fuel + 1 =>
    if s.available < s.committed ∧ (s.available = 0 ∨ 1 < s.ringList.length) then
      match s.ringList.getLast? with
      | some r => (s.shedTail r).shedStep fuel
      | none => s
    else s

/-- The duration of a segment of a cadence, in ms, from the table as it stands (R112). -/
def State.segmentMs (s : State) (c : CadenceNo) (segment : Nat) : Nat :=
  (s.cadences[c])[segment]?.getD 0 * cadenceUnit

/-- The head of the ring queue starts ringing at segment 0 and joins the tail of the ringing list. A damaged entry
retires instead (R128, R182). -/
def State.startHead (s : State) (q : QueueEntry) : State :=
  match s.byHandle q.handle with
  | none => s.dropQueued q.handle
  | some (e, b) =>
    if (s.entry e).damaged then s.failEntry id (fun _ => []) e
    else
      let t := s.dropQueued q.handle
      let u := { t with
        ringList := t.ringList ++
          [({ handle := q.handle, port := q.port, cadence := q.cadence, load := q.load, segment := 0,
              left := s.segmentMs q.cadence 0 } : RingEntry)]
        committed := t.committed + q.load }
      u.writeEntry e (some { b with phase := .ringing, tRingwait := none })

/-- The head fits, or rings alone by the lone-ring allowance (R127). -/
def State.mayStart (s : State) (q : QueueEntry) : Bool :=
  decide (s.committed + q.load ≤ s.available) || (decide (s.committed = 0) && decide (0 < s.available))

/-- The admission step, strictly from the head of the ring queue (R127). -/
def State.admitStep (s : State) : Nat → State
  | 0 => s
  | fuel + 1 =>
    match s.ringQueue with
    | q :: _ => if s.mayStart q then (s.startHead q).admitStep fuel else s
    | [] => s

/-- The budget pass: the shedding step, then the admission step (R124). A damaged entry retired within it starts no new
pass, so a binding shed before that retirement may start again here, as it would in the pass of R129 (log entry 15). -/
def State.budgetPass (s : State) : State :=
  let t := s.shedStep (s.ringList.length + 1)
  t.admitStep (t.ringQueue.length + 1)

/-- A is computed anew and the pass runs (R122). -/
def State.recompute (s : State) : State := { s with available := s.capacity }.budgetPass

end Sys2Proof.Machine
end

