-- ==== Sys2Proof/Machine/Failure.lean ====
section
/-!
DEFINITION. Machine/Failure.lean: entry to CLEARING (R84) and the failure actions of the three kinds of record (R179,
R181, R183), without the OWQ service that an event may run after them.
-/
namespace Sys2Proof.Machine

/-- The record of a binding that enters CLEARING (R84). -/
def Binding.intoClearing (b : Binding) (release : Nat) : Binding :=
  { b with phase := .clearing, early := none, reversal := false, tAccept := none, tRingwait := none, tRingmax := none,
           tRelease := some release }

/-- Entry to CLEARING but for its CLEAR: the record, the injector, the port, and the ringing lists with their budget
pass (R84, R129, R142). `move` takes the port out of BOUND. -/
def State.clearingEffects (s : State) (e : EntryNo) (b : Binding) (move : State → State) : State :=
  let t := s.writeEntry e (some (b.intoClearing (s.params.tRelease * secondMs)))
  (move (t.stopInjector b.port)).leaveRinging State.budgetPass b.handle

/-- A binding enters CLEARING: its CLEAR is sent with the count at entry (R84). -/
def State.enterClearing (s : State) (e : EntryNo) (b : Binding) (cause : Cause) (move : State → State) : State :=
  (s.sendNow (.clear b.handle cause b.meterCount)).clearingEffects e b move

/-- The binding failure actions, a budget pass following a removal from a ringing list (R181, R129). -/
def State.bindingActions (s : State) (outer : Nat → List Message) (e : EntryNo) : State :=
  s.failEntry State.budgetPass outer e

/-- The slot failure actions on a slot record found damaged (R183). -/
def State.slotActions (s : State) (n : SlotNo) : State :=
  let old := s.slot n
  let t := s.countFault.suspect n
  let found := if old.state = .bound then t.byHandle old.handle else none
  match found with
  | none => t.reporting [.integrity .slot (slotNumber n) 0] id
  | some (e, b) =>
    if (t.entry e).damaged then
      t.countFault.reporting [.integrity .slot (slotNumber n) 0, .integrity .binding e.val 0] fun u =>
        u.retireFailed State.budgetPass e b 0
    else
      (t.sendNow (.clear b.handle .storeFault b.meterCount)).reporting
        [.integrity .slot (slotNumber n) b.handle] fun u => u.retireFailed State.budgetPass e b b.handle

/-- A slot of the pool found damaged at an allocation, or one found damaged at its return: it becomes SUSPECT and is
reported, and no binding is touched (R51, R52, R183). -/
def State.suspectAtUse (s : State) (n : SlotNo) (handle : Nat) : State :=
  (s.countFault.suspect n).reporting [.integrity .slot (slotNumber n) handle] id

/-- The line failure actions on a record found damaged, in the order of R179. When the entry of the live binding is damaged
too, step 3 retires the binding, which settles a BOUND port by its hook (R45, R181), and step 4 then takes the port from
the state it holds to QUARANTINE (R182). -/
def State.lineActions (s : State) (p : PortNo) : State :=
  let t := s.countFault.withdraw p
  let report := fun h => [Message.integrity .line p.val h]
  match t.call p with
  | some (e, b) =>
    if b.phase = .clearing then t.reporting (report 0) fun u => u.quarantine p
    else if (t.entry e).damaged then (t.bindingActions report e).quarantine p
    else
      (t.sendNow (.clear b.handle .storeFault b.meterCount)).reporting (report b.handle) fun u =>
        u.clearingEffects e b fun v => v.quarantine p
  | none => t.reporting (report 0) fun u => u.quarantine p

end Sys2Proof.Machine
end

