-- ==== Sys2Proof/Machine/Service.lean ====
section
/-!
DEFINITION. Machine/Service.lean: allocation of a slot (R51), OWQ service (R99 to R101), retirement (R89 to R92) and the
failure actions with the service that follows them (R89 step 8).
-/
namespace Sys2Proof.Machine

/-- Admission of a class and, when it is admitted, the slot at the pool head whose record reads good. A damaged head
becomes SUSPECT and the admission is tested again (R51). -/
def State.allocate (s : State) (c : LineClass) : Nat → State × Option SlotNo
  | 0 => (s, none)
  | fuel + 1 =>
    if s.admitted c then
      match s.pool with
      | n :: _ => if (s.slot n).damaged then (s.suspectAtUse n 0).allocate c fuel else (s, some n)
      | [] => (s, none)
    else (s, none)

/-- Allocation, the pool being as long as it is. -/
def State.admitSlot (s : State) (c : LineClass) : State × Option SlotNo := s.allocate c (s.pool.length + 1)

/-- The scan of the origin wait queue over the ports still to consider. A served entry starts the scan again at the
head; an empty pool ends it without reading any record (R99, R100, R101). A port that a failure of this scan took out of
the queue is not considered (R105). -/
def State.serviceScan (s : State) : Nat → List PortNo → State
  | 0, _ => s
  | _ + 1, [] => s
  | fuel + 1, p :: rest =>
    if s.pool = [] then s
    else if !s.waiting p then s.serviceScan fuel rest
    else if s.link ≠ .up then s.serviceScan fuel rest
    else if s.hasClearing p then s.serviceScan fuel rest
    else if (s.line p).withdrawn then s.serviceScan fuel rest
    else if (s.line p).damaged then (s.lineActions p).serviceScan fuel rest
    else
      match s.admitSlot (s.line p).cls with
      | (t, none) => t.serviceScan fuel rest
      | (t, some n) =>
        let u := (t.leaveQueue p).seize p n
        u.serviceScan fuel (u.owq.map (·.port))

/-- OWQ service (R98). Each entry served leaves the queue, so the square of its length bounds the scan. -/
def State.service (s : State) : State :=
  s.serviceScan ((s.owq.length + 1) * (s.owq.length + 1)) (s.owq.map (·.port))

/-- Service runs when the port of a binding was waiting behind it (R89, step 8, log entry 31). -/
def State.serviceIf (s : State) (b : Bool) : State := if b then s.service else s

/-- The binding failure actions of an event (R181): service follows when the port was waiting. -/
def State.bindingFailure (s : State) (e : EntryNo) : State :=
  let waiting := match (s.entry e).binding with
    | some b => s.waiting b.port
    | none => false
  (s.bindingActions (fun _ => []) e).serviceIf waiting

/-- The slot failure actions of an event (R183): service follows when the port of the binding it ended was waiting. -/
def State.slotFailure (s : State) (n : SlotNo) : State :=
  let waiting := match s.byHandle (s.slot n).handle with
    | some (_, b) => decide ((s.slot n).state = .bound) && s.waiting b.port
    | none => false
  (s.slotActions n).serviceIf waiting

/-! ## Retirement -/

/-- Step 3: the meter fold (R143), or the line failure actions when the read finds damage (R144). -/
def State.fold (s : State) (b : Binding) : State :=
  let r := s.line b.port
  if r.withdrawn then s
  else if r.damaged then s.lineActionsRetiring b.port b.handle
  else s.writeLine b.port { r with total := satAdd totalMax r.total b.meterCount }

/-- Step 5: the return of the slot (R52); a damaged record makes it SUSPECT and is reported with the retiring binding's
handle (R183). -/
def State.returnSlot (s : State) (b : Binding) : State :=
  if (s.slot b.slot).damaged then s.suspectAtUse b.slot b.handle else s.returnGoodSlot b.slot

/-- A retirement of the normal kind, its steps in order (R89, R90). Whether the port was waiting is taken before the first
step (log entry 31). -/
def State.retire (s : State) (e : EntryNo) (b : Binding) : State :=
  let waiting := s.waiting b.port
  let t := (((s.leaveRinging State.budgetPass b.handle).fold b).stopInjector b.port)
  let appended := !(t.slot b.slot).damaged && !(t.slot b.slot).blockPending
  let u := (t.returnSlot b).writeEntry e none
  ((u.settle b.port).completeCease b.port b.handle).serviceIf (appended || waiting)

/-- Steps 1 to 7 of a retirement by link loss or warm reset, but for the ringing lists and the slot, which those events
settle for all bindings at once (R65, R91, R92). The entry is not read (R177). -/
def State.retireQuiet (s : State) (settle : Bool) (e : EntryNo) : State :=
  match (s.entry e).binding with
  | none => s
  | some b =>
    let t := ((s.fold b).stopInjector b.port).writeEntry e none
    (if settle then t.settle b.port else t).completeCease b.port b.handle

/-- A slot is returned at link loss or warm reset (R64): a BOUND one by its marker, SUSPECT when found damaged. -/
def State.returnQuiet (s : State) (n : SlotNo) : State :=
  if (s.slot n).state = .bound then
    if (s.slot n).damaged then s.countFault.suspect n else s.returnGoodSlot n
  else s

/-- Every binding retires; the ringing lists are emptied and L is 0; the slots are returned in slot-number order (R64,
R65, R91, R92). -/
def State.retireAll (s : State) (settle : Bool) : State :=
  let t := { s with ringQueue := [], ringList := [], committed := 0 }
  let u := allEntries.foldl (fun v e => v.retireQuiet settle e) t
  allSlots.foldl State.returnQuiet u

end Sys2Proof.Machine
end

