-- ==== Sys2Proof/Machine/Taking.lean ====
section
/-!
DEFINITION. Machine/Taking.lean: what every message from the exchange shares: when it is taken at all (R189), the reply
it is owed (R191), the checks of a message that names a handle (R70), the cursor's move (R200), and what more than one
family of events does: a digit sent (R36) and a meter pulse started (R141).
-/
namespace Sys2Proof.Machine

/-- SCI takes octets, and so messages, while the link is UP and the framer indication is ALIGNED (R189). -/
def State.canTake (s : State) : Bool := decide (s.link = .up) && decide (s.framer = .aligned)

/-- A message is taken: its frame leaves the assembly (log entry 7), and the reports of failures wait for its reply
(R178), or for the end of the event when it is owed none. At other times the message is discarded (R189, log entry
6). -/
def State.takeMessage (s : State) (f : State → State) : Result :=
  .next (if s.canTake then (f { s with assembly := [] }.hold).release else s)

/-- The provisioning engine is BUSY (R17). -/
def State.busy (s : State) : Bool :=
  match s.engine with
  | .idle => false
  | _ => true

/-- The store clear runs (R206). -/
def State.storeClearing (s : State) : Bool :=
  match s.engine with
  | .storeClear _ => true
  | _ => false

/-- Checks 0, 1 and 2 of a message that names a handle (R70); `take` is given the entry and its record. -/
def State.withHandle (s : State) (tag : Nat) (a : Address) (take : EntryNo → Binding → State → State) : State :=
  match a with
  | .handle h =>
    match s.byHandle h with
    | none => s.ack tag .stale
    | some (e, b) =>
      if (s.entry e).damaged then (s.bindingFailure e).ack tag .storeFault
      else take e b s
  | _ => s.ack tag .badValue

/-- The port one on from a port in a direction, wrapping (R199). -/
def cursorStep (d : CursorDirection) (p : PortNo) : PortNo :=
  match d with
  | .up => p + 1
  | .down => p - 1

/-- The cursor moves after a successful CURSOR-addressed request whose part of the advance mode is on (R200). -/
def State.moveCursor (s : State) (a : Address) (on : Bool) : State :=
  if isCursorForm a && on then { s with cursor := cursorStep s.advance.direction s.cursor } else s

/-- An entry of the early list as the message that sends it (R36, R72). -/
def Dialled.message (h : Nat) : Dialled → Message
  | .digit d => .digit h d
  | .flash => .flash h

/-- A pulse starts on a port whose injector is IDLE when there is one pending and the conditions hold; the pending count
falls by 1 in the record (R140, R141). The record has just been written, so the read of R141 finds it good. -/
def State.startTrain (s : State) (e : EntryNo) (b : Binding) : State :=
  match (s.port b.port).injector with
  | .idle =>
    if 1 ≤ b.pendingPulses ∧ s.mayPulse b.port b.phase then
      (s.writeEntry e (some { b with pendingPulses := b.pendingPulses - 1 })).setPort b.port
        { s.port b.port with injector := .pulse meterPulseMs }
    else s
  | _ => s

end Sys2Proof.Machine
end

