-- ==== Sys2Proof/Machine/CallTimers.lean ====
section
/-!
DEFINITION. Machine/CallTimers.lean: the expiries of T_accept, T_ringwait, T_ringmax, T_release and T_wait (4, 5). An
expiry is taken only while its timer runs (R69, log entry 3). The binding entry is read, and a damaged one takes the
place of the expiry's own effect (R182).
-/
namespace Sys2Proof.Machine

/-- The binding of an expiry: live and in a phase in which the timer runs; `take` acts on a good entry (R69, R182). -/
def State.onExpiry (s : State) (handle : Nat) (runs : Binding → Bool) (take : EntryNo → Binding → State → State) :
    State :=
  match s.byHandle handle with
  | none => s
  | some (e, b) =>
    if runs b then
      if (s.entry e).damaged then s.bindingFailure e else take e b s
    else s

/-- T_accept runs, in SEIZING (R68, R69). -/
def Binding.acceptRuns (b : Binding) : Bool := decide (b.phase = .seizing) && b.tAccept.isSome

/-- T_ringwait runs, in RING_WAIT (R68, R69). -/
def Binding.ringwaitRuns (b : Binding) : Bool := decide (b.phase = .ringWait) && b.tRingwait.isSome

/-- T_ringmax runs, in RING_WAIT and RINGING (R68, R69). -/
def Binding.ringmaxRuns (b : Binding) : Bool :=
  (decide (b.phase = .ringWait) || decide (b.phase = .ringing)) && b.tRingmax.isSome

/-- T_release runs, in CLEARING (R68, R69). -/
def Binding.releaseRuns (b : Binding) : Bool := decide (b.phase = .clearing) && b.tRelease.isSome

/-- T_ACCEPT_EXPIRY: CLEARING with NO_GRANT, the port to LOCKOUT (R74). -/
def execTAcceptExpiry (handle : Nat) (s : State) : Result :=
  .next <| s.onExpiry handle Binding.acceptRuns fun e b s =>
    s.enterClearing e b .noGrant fun t => t.place b.port .lockout

/-- T_RINGWAIT_EXPIRY: counted; CLEARING with NO_RING_POWER, the port to IDLE or PARKED (R81, R131). -/
def execTRingwaitExpiry (handle : Nat) (s : State) : Result :=
  .next <| s.onExpiry handle Binding.ringwaitRuns fun e b s =>
    { s with counters := { s.counters with ringwaitTimeouts := bump s.counters.ringwaitTimeouts } }.enterClearing e b
      .noRingPower fun t => t.toIdle b.port

/-- T_RINGMAX_EXPIRY: CLEARING with NO_ANSWER, the port to IDLE or PARKED (R82, R132). -/
def execTRingmaxExpiry (handle : Nat) (s : State) : Result :=
  .next <| s.onExpiry handle Binding.ringmaxRuns fun e b s =>
    s.enterClearing e b .noAnswer fun t => t.toIdle b.port

/-- T_RELEASE_EXPIRY: counted; the binding retires normally (R86). -/
def execTReleaseExpiry (handle : Nat) (s : State) : Result :=
  .next <| s.onExpiry handle Binding.releaseRuns fun e b s =>
    { s with counters := { s.counters with releaseTimeouts := bump s.counters.releaseTimeouts } }.retire e b

/-- T_WAIT_EXPIRY: the entry leaves the queue, the expiry is counted, the port goes to LOCKOUT (R103). -/
def execTWaitExpiry (p : PortNo) (s : State) : Result :=
  .next <|
    if s.waiting p then
      let t := s.leaveQueue p
      { t with counters := { t.counters with waitTimeouts := bump t.counters.waitTimeouts } }.place p .lockout
    else s

end Sys2Proof.Machine
end

