-- ==== Sys2Proof/Machine/Cabinet.lean ====
section
/-!
DEFINITION. Machine/Cabinet.lean: SENSE_READING, the power state with parking and unparking, the thermal band and the
POWER and SENSE reports (8).
-/
namespace Sys2Proof.Machine

/-! ## Reports -/

/-- The POWER report with the values as they stand (R160). -/
def State.powerReport (s : State) : Message :=
  .power s.sense.power s.sense.band s.sense.heldB s.sense.heldT

/-- A POWER report is sent when the power state or the band differs from what it was before the event (R160). -/
def State.reportPower (s : State) (before : Sense) : State :=
  if s.sense.power = before.power ∧ s.sense.band = before.band then s else s.send s.powerReport

/-! ## Parking -/

/-- Entering SURVIVAL treats one port, its record read unless the port is VACANT or the record withdrawn (R156, R157). A
record of status VACANT, which a port in TEST may hold, is not in use, and such a port is not parkable (log entry 34). -/
def State.parkPort (s : State) (p : PortNo) : State :=
  if (s.port p).sup = .vacant ∨ (s.line p).withdrawn then s
  else if (s.line p).damaged then s.lineActions p
  else if (s.line p).status ≠ .vacant ∧ (s.line p).parkableClass then
    match (s.port p).sup with
    | .idle => s.place p .parked
    | .waitSlot => s.mark p true
    | .bound => s.mark p true
    | .lockout => s.mark p true
    | .test => s.mark p true
    | _ => s
  else s

/-- Leaving SURVIVAL treats one port: PARKED becomes IDLE, and the marker clears (R158). -/
def State.unparkPort (s : State) (p : PortNo) : State :=
  let t := if (s.port p).sup = .parked then s.place p .idle else s
  t.mark p false

/-- The power state becomes this one, with the effects of a change (R155 to R158). -/
def State.enterPower (s : State) (after : PowerState) : State :=
  let before := s.sense.power
  let t := { s with sense := { s.sense with power := after } }
  if before ≠ .survival ∧ after = .survival then allPorts.foldl State.parkPort t
  else if before = .survival ∧ after ≠ .survival then allPorts.foldl State.unparkPort t
  else t

/-- The band is evaluated (R153). -/
def State.evalBand (s : State) : State := { s with sense := { s.sense with band := s.bandNow } }

/-! ## Readings -/

/-- A channel is enabled (11.4). -/
def State.channelOn (s : State) : Channel → Bool
  | .battery => s.params.battery
  | .temperature => s.params.temperature

/-- The fault flag of a channel. -/
def Sense.fault (q : Sense) : Channel → Bool
  | .battery => q.faultB
  | .temperature => q.faultT

/-- The run count of a channel. -/
def Sense.run (q : Sense) : Channel → Nat
  | .battery => q.runB
  | .temperature => q.runT

/-- The run count and the fault flag of a channel are written. -/
def Sense.setFault (q : Sense) (c : Channel) (run : Nat) (fault : Bool) : Sense :=
  match c with
  | .battery => { q with runB := run, faultB := fault }
  | .temperature => { q with runT := run, faultT := fault }

/-- The held value of a channel is replaced (R149, step 1). A valid battery reading is 200 to 700, so it is the natural
number it is read as. -/
def Sense.setHeld (q : Sense) (c : Channel) (v : Int) : Sense :=
  match c with
  | .battery => { q with heldB := some v.toNat }
  | .temperature => { q with heldT := some v }

/-- The value is one the channel's sensor can give (R148). -/
def validReading (c : Channel) (v : Int) : Bool :=
  match c with
  | .battery => decide (200 ≤ v) && decide (v ≤ 700)
  | .temperature => decide (-50 ≤ v) && decide (v ≤ 100)

/-- A valid reading, its steps in order (R149). -/
def State.validStep (s : State) (c : Channel) (v : Int) : State :=
  let t := { s with sense := (s.sense.setHeld c v).setFault c 0 false }
  let u := (if s.sense.fault c then t.send (.sense c .ok) else t).recompute
  let w := match c with
    | .battery => u.enterPower (u.params.nextPower u.sense.power v.toNat)
    | .temperature => u.evalBand
  w.reportPower s.sense

/-- An invalid reading (R150). -/
def State.invalidStep (s : State) (c : Channel) : State :=
  let run := min (s.sense.run c + 1) 5
  let t := { s with sense := s.sense.setFault c run (s.sense.fault c || decide (run = 5)) }
  if run = 5 ∧ s.sense.fault c = false then t.send (.sense c .fault) else t

/-- SENSE_READING (R148): ignored while the channel is disabled and while the store clear runs (R164). -/
def execSenseReading (c : Channel) (value : Option Int) (s : State) : Result :=
  .next <|
    if s.storeClearing || !s.channelOn c then s
    else
      match value with
      | some v => if validReading c v then s.validStep c v else s.invalidStep c
      | none => s.invalidStep c

end Sys2Proof.Machine
end

