-- ==== Sys2Proof/Machine/Integrity.lean ====
section
/-!
DEFINITION. Machine/Integrity.lean: the sweep and the storage upset (10).
-/
namespace Sys2Proof.Machine

/-- The record at a sweep position: 0 to 47 lines, 48 to 62 slots, 63 to 77 binding entries (R184). -/
def locationOf (i : SweepPos) : Location :=
  if h : i.val < 48 then .line ⟨i.val, h⟩
  else if h2 : i.val < 63 then .slot ⟨i.val - 48, by omega⟩
  else .binding ⟨i.val - 63, by omega⟩

/-- The sweep reads one record and handles the damage it finds (R185). -/
def State.sweepRead (s : State) : Location → State
  | .line p => if (s.line p).damaged && !(s.line p).withdrawn then s.lineActions p else s
  | .slot n => if (s.slot n).damaged then s.slotFailure n else s
  | .binding e => if (s.entry e).damaged then s.bindingFailure e else s

/-- SWEEP_STEP: the record at the position is read, and the position moves on, 77 to 0 (R184, R185). The sweep does not
run during store clear (R184). -/
def execSweepStep (s : State) : Result :=
  .next <|
    if s.storeClearing then s
    else { s with sweepPos := s.sweepPos + 1, sweepLeft := sweepStepMs }.sweepRead (locationOf s.sweepPos)

/-- STORAGE_UPSET: one record becomes damaged, its fields as they were (R176). -/
def execStorageUpset (l : Location) (s : State) : Result :=
  .next <|
    match l with
    | .line p => s.setLine p { s.line p with damaged := true }
    | .slot n => s.setSlot n { s.slot n with damaged := true }
    | .binding e => s.setEntry e { s.entry e with damaged := true }

end Sys2Proof.Machine
end

