-- ==== Sys2Proof/Machine/TestAccess.lean ====
section
/-!
DEFINITION. Machine/TestAccess.lean: the test bus: TEST_CONNECT, TEST_RELEASE, T_TEST_EXPIRY and the return state (9).
-/
namespace Sys2Proof.Machine

/-- T_test from zero, as the parameter stands (R166). -/
def State.testHold (s : State) (p : PortNo) : TestHold := { port := p, left := s.params.tTest * minuteMs }

/-- The port is connected to the bus: T_test starts, the port becomes TEST, and its latch keeps the drive given (R26,
R168). -/
def State.connectBus (s : State) (p : PortNo) (kept : Drive) : State :=
  let t := { s with bus := some (s.testHold p) }
  t.setPort p { (t.port p).place .test with testLatch := kept }

/-- A port that is not BOUND is connected; a waiting port leaves the origin wait queue (R105, R168). -/
def State.connectIdle (s : State) (tag : Nat) (p : PortNo) : State :=
  ((s.leaveQueue p).connectBus p (s.latch p)).ack tag .ok

/-- A BOUND port is connected with force: its binding is read, enters CLEARING with cause TEST, and the port is in TEST
(R93, R169). -/
def State.connectForced (s : State) (tag : Nat) (p : PortNo) : State :=
  match s.call p with
  | none => s.connectIdle tag p
  | some (e, b) =>
    if (s.entry e).damaged then (s.bindingFailure e).ack tag .storeFault
    else
      let kept := s.latch p
      (s.enterClearing e b .test fun t => t.connectBus p kept).ack tag .ok

/-- TEST_CONNECT: the checks of R167 in order, then R168 or R169. -/
def execTestConnect (tag : Nat) (a : Address) (force : Bool) (s : State) : Result :=
  s.takeMessage fun s =>
    match s.resolveNoCursor a with
    | .fails code => s.ack tag code
    | .port p =>
      match s.bus with
      | some h =>
        if h.port = p then { s with bus := some (s.testHold p) }.ack tag .ok else s.ack tag .busBusy
      | none =>
        if (s.port p).sup = .bound then
          if force then s.connectForced tag p else s.ack tag .lineBusy
        else s.connectIdle tag p

/-- The return state of a port, its record being in use (R172, rows 1 and 3 to 5; R48 likewise). -/
def State.returnState (s : State) (p : PortNo) : SupState :=
  if (s.line p).status = .vacant then .vacant
  else if s.parkable p then .parked
  else if (s.port p).hook = .off then .lockout
  else .idle

/-- The line record of a port that is placed from its record is found damaged (R48, R172). -/
def State.placementFault (s : State) (p : PortNo) : Bool := (s.line p).damaged && !(s.line p).withdrawn

/-- The bus is disconnected and the port takes its return state; the record is read first, unless it is withdrawn
(R172, log entry 12). -/
def State.disconnect (s : State) (p : PortNo) : State :=
  let t := if s.placementFault p then s.lineActions p else s
  let u := ({ t with bus := none }).mark p false
  if (u.line p).withdrawn then u.place p .quarantine else u.place p (u.returnState p)

/-- TEST_RELEASE (R173). -/
def execTestRelease (tag : Nat) (a : Address) (s : State) : Result :=
  s.takeMessage fun s =>
    match s.resolveNoCursor a with
    | .fails code => s.ack tag code
    | .port p =>
      if (s.port p).sup = .test then
        (s.disconnect p).ack tag (if s.placementFault p then .storeFault else .ok)
      else s.ack tag .wrongPhase

/-- T_test runs out: the port is placed and TEST_ENDED is sent, the INTEGRITY report of a damaged record after it
(R174). -/
def execTTestExpiry (s : State) : Result :=
  .next <|
    match s.bus with
    | none => s
    | some h =>
      let t := s.hold.disconnect h.port
      t.reply (.testEnded h.port (t.port h.port).sup)

end Sys2Proof.Machine
end

