-- ==== Sys2Proof/Machine/LinkState.lean ====
section
/-!
DEFINITION. Machine/LinkState.lean: the link and its holds, link loss, RESTART, the warm reset, the reset line, the store
clear (11.2, 11.6).
-/
namespace Sys2Proof.Machine

/-! ## RESTART -/

/-- The records out of use now: ports in QUARANTINE and slots in SUSPECT (R187, R197). -/
def State.failedNow (s : State) : Nat :=
  (allPorts.filter fun p => decide ((s.port p).sup = .quarantine)).length +
    (allSlots.filter fun n => decide ((s.slot n).state = .suspect)).length

/-- RESTART, and after it the POWER report and a SENSE report for each faulted channel (R162, R197). -/
def State.sendRestart (s : State) (cause : RestartCause) (failed : Nat) : State :=
  let t := (s.send (.restart cause failed)).send s.powerReport
  let u := if s.sense.faultB then t.send (.sense .battery .fault) else t
  if s.sense.faultT then u.send (.sense .temperature .fault) else u

/-! ## Link loss -/

/-- The origin wait queue is emptied, each port left in it going to LOCKOUT (R108). -/
def State.emptyQueue (s : State) : State :=
  { (s.owq.foldl (fun t w => t.place w.port .lockout) s) with owq := [] }

/-- The bus, if it holds a port, is disconnected and the port placed (R175). -/
def State.freeBus (s : State) : State :=
  match s.bus with
  | some h => s.disconnect h.port
  | none => s

/-- A running range walk is marked: its answer will not be sent (R20). -/
def State.markWalk (s : State) : State :=
  match s.engine with
  | .walk w => { s with engine := .walk { w with linkLost := true } }
  | _ => s

/-- The link-loss event (R194): every call is given up, nothing is sent. -/
def State.linkLoss (s : State) : State :=
  let t := { s with link := .down, lossHold := none, assembly := [] }
  t.silently fun u => ((u.retireAll true).emptyQueue.freeBus).markWalk

/-! ## Framer and holds (R193) -/

/-- FRAMER_LOST. -/
def execFramerLost (s : State) : Result :=
  .next <|
    if s.framer = .lost then s
    else
      let t := { s with framer := .lost, assembly := [] }
      match s.link with
      | .up => { t with lossHold := some linkHoldMs }
      | .aligning => { t with link := .down, alignHold := none }
      | .down => t

/-- From DOWN, the link becomes ALIGNING and the alignment hold starts when the recorded indication is ALIGNED, the
reset line is released and no store clear runs (R193, R206, R207, R209). -/
def State.tryAlign (s : State) : State :=
  if s.link = .down ∧ s.framer = .aligned ∧ s.resetLine = .released ∧ s.storeClearing = false then
    { s with link := .aligning, alignHold := some linkHoldMs }
  else s

/-- FRAMER_ALIGNED. -/
def execFramerAligned (s : State) : Result :=
  .next <|
    if s.framer = .aligned then s
    else
      let t := { s with framer := .aligned }
      match s.link with
      | .up => { t with lossHold := none }
      | .aligning => t
      | .down => t.tryAlign

/-- LOSS_HOLD_EXPIRY (R193, R194). -/
def execLossHoldExpiry (s : State) : Result :=
  .next <|
    match s.link, s.lossHold with
    | .up, some _ => s.linkLoss
    | _, _ => s

/-- The cause and the count of the RESTART at link UP (R196, R197). -/
def State.restartDue (s : State) : RestartCause × Nat :=
  match s.pendingRestart with
  | .none => (.link, s.failedNow)
  | .reset => (.reset, s.failedNow)
  | .power n => (.power, n)

/-- ALIGNMENT_HOLD_EXPIRY: the link becomes UP and RESTART is sent (R193, R197). -/
def execAlignmentHoldExpiry (s : State) : Result :=
  .next <|
    match s.link, s.alignHold with
    | .aligning, some _ =>
      { s with link := .up, alignHold := none, assembly := [], pendingRestart := .none }.sendRestart
        s.restartDue.1 s.restartDue.2
    | _, _ => s

/-! ## Warm reset (R208) -/

/-- The placement of one port at a warm reset, the bus already free: the marker and a partial digit are lost, and the
record, the hook and the power state decide (R48, log entry 12). -/
def State.resetPort (s : State) (p : PortNo) : State :=
  let t := s.setPort p { s.port p with parkPending := false, pulses := 0, makeTimer := none, injector := .idle }
  let u := if t.placementFault p then t.lineActions p else t
  if (u.line p).withdrawn then u.place p .quarantine else u.place p (u.returnState p)

/-- Every entry is left empty with a fresh check (R92). -/
def State.emptyEntries (s : State) : State := allEntries.foldl (fun t e => t.writeEntry e none) s

/-- The warm reset, its actions in order (R208). It sends no message of its own, and the failures it finds are handled
without messages (R178). -/
def State.warmReset (s : State) : State :=
  let walkGone := { s with engine := .idle }
  let t := walkGone.silently fun u =>
    let v := { (u.retireAll false).emptyEntries with nextHandle := 1, owq := [], bus := none }
    allPorts.foldl State.resetPort v
  { t with
    cursor := 0
    advance := AdvanceMode.initial
    sweepPos := 0
    sweepLeft := sweepStepMs
    counters := Counters.zero }

/-- RESET_CABINET: OK, the warm reset with the link kept and the frame assembly kept, RESTART(COMMAND) (R210). -/
def execResetCabinet (tag : Nat) (s : State) : Result :=
  .next <|
    if s.canTake then
      let t := (s.ack tag .ok).warmReset
      t.sendRestart .command t.failedNow
    else s

/-- The pending restart after an assertion of the reset line (R196). -/
def PendingRestart.afterReset : PendingRestart → PendingRestart
  | .power n => .power n
  | _ => .reset

/-- RESET_LINE_ASSERTED: recorded while the store clear runs; else a warm reset with the link held DOWN (R209). -/
def execResetLineAsserted (s : State) : Result :=
  .next <|
    if s.resetLine = .asserted then s
    else
      let t := { s with resetLine := .asserted }
      if t.storeClearing then t
      else
        { t.warmReset with
          link := .down
          lossHold := none
          alignHold := none
          assembly := []
          pendingRestart := t.pendingRestart.afterReset }

/-- RESET_LINE_RELEASED (R209). -/
def execResetLineReleased (s : State) : Result :=
  .next <|
    if s.resetLine = .released then s else { s with resetLine := .released }.tryAlign

/-! ## Store clear (R206, R207) -/

/-- A port as power-on and store clear set it (R47): only the condition of its line is not the part's to set. -/
def Port.cleared (q : Port) : Port := { Port.initial with lineClosed := q.lineClosed }

/-- POWER_ON: the store clear begins (R206). The inputs are recorded as they stand; the queue of commands and the log of
messages are not the part's to lose (log entry 11). -/
def execPowerOn (framer : Framer) (resetLine : ResetLine) (s : State) : Result :=
  .next
    { State.reset with
      pending := s.pending
      draws := s.draws
      ports := s.ports.map Port.cleared
      framer := framer
      resetLine := resetLine
      pendingRestart := .none
      engine := .storeClear storeClearMs
      out := s.out }

/-- The locations that failed, in the order of the sweep (R184, R187). -/
def failedLocations (failed : List Nat) : List SweepPos :=
  (List.finRange 78).filter fun i => failed.contains i.val

/-- A failed location is put out of use (R187): a line record is withdrawn and its port in QUARANTINE, fed and tracked
(R22, R47); a slot is SUSPECT and out of the pool (R63); a binding entry stays in use (R92). -/
def State.failLocation (s : State) (i : SweepPos) : State :=
  match locationOf i with
  | .line p => (s.setLine p { s.line p with withdrawn := true }).place p .quarantine
  | .slot n => s.suspect n
  | .binding _ => s

/-- STORE_CLEAR_END (R207): every location afresh, the defaults, the pending restart POWER with the count of failed
locations, and the alignment hold when the inputs allow it. -/
def execStoreClearEnd (failed : List Nat) (s : State) : Result :=
  .next <|
    if s.storeClearing then
      let t := { State.reset with
        pending := s.pending
        draws := s.draws
        ports := s.ports.map Port.cleared
        framer := s.framer
        resetLine := s.resetLine
        pendingRestart := .power (failedLocations failed).length
        out := s.out }
      ((failedLocations failed).foldl State.failLocation t).tryAlign
    else s

end Sys2Proof.Machine
end

