-- ==== Sys2Proof/Machine/Clock.lean ====
section
/-!
DEFINITION. Machine/Clock.lean: the part's clock. While no command waits, an expiry that is due is taken as the event it
is; when none is due, one millisecond passes (log entry 1).
-/
namespace Sys2Proof.Machine

/-! ## What is due -/

/-- A count has run out. -/
def ranOut (left : Option Nat) : Bool := decide (left = some 0)

/-- The declarations of one port that are due: the closure has lasted its T_seize (R30), the break 900 ms (R33), the make
timer 250 ms (R34). -/
def State.lineDue (s : State) (p : PortNo) : List Instr :=
  match (s.port p).classifier with
  | .closure n => if s.tSeize p ≤ n then [.offHookDeclared p] else []
  | .breaking n => if onHookBreak ≤ n then [.onHookDeclared p] else []
  | .make =>
    match (s.port p).makeTimer with
    | some n => if digitMake ≤ n then [.digitEnd p] else []
    | none => []
  | .atRest => []

/-- The end of a pulse or a gap of one port (R140). -/
def State.injectorDue (s : State) (p : PortNo) : List Instr :=
  match (s.port p).injector with
  | .pulse 0 => [.pulseEnd p]
  | .gap 0 => [.gapEnd p]
  | _ => []

/-- The expiries of one binding (R69). -/
def Binding.due (b : Binding) : List Instr :=
  (if b.acceptRuns && ranOut b.tAccept then [.tAcceptExpiry b.handle] else []) ++
    (if b.ringwaitRuns && ranOut b.tRingwait then [.tRingwaitExpiry b.handle] else []) ++
    (if b.ringmaxRuns && ranOut b.tRingmax then [.tRingmaxExpiry b.handle] else []) ++
    (if b.releaseRuns && ranOut b.tRelease then [.tReleaseExpiry b.handle] else [])

/-- The expiries of the binding table. -/
def State.bindingsDue (s : State) : List Instr :=
  allEntries.flatMap fun e =>
    match (s.entry e).binding with
    | some b => b.due
    | none => []

/-- The step of the provisioning engine that is due (R18). -/
def State.walkDue (s : State) : List Instr :=
  match s.engine with
  | .walk w => if w.left = 0 then [.rangeStep] else []
  | _ => []

/-- The expiry of T_test (R174). -/
def State.busDue (s : State) : List Instr :=
  match s.bus with
  | some h => if h.left = 0 then [.tTestExpiry] else []
  | none => []

/-- Every event of the part's own that is due now. While the store clear runs, its end alone can be; the locations that
fail its test are a free value (log entry 10). -/
def State.due (s : State) : List Instr :=
  match s.engine with
  | .storeClear left =>
    if left = 0 then [.storeClearEnd ((List.range 78).filter (Config.storeTestFails s.draws))] else []
  | _ =>
    allPorts.flatMap (fun p => s.lineDue p ++ s.injectorDue p) ++ s.bindingsDue ++
      ((s.ringList.filter fun r => decide (r.left = 0)).map fun r => .segmentEnd r.handle) ++
      ((s.owq.filter fun w => decide (w.left = 0)).map fun w => .tWaitExpiry w.port) ++
      s.busDue ++ s.walkDue ++ (if s.sweepLeft = 0 then [.sweepStep] else []) ++
      (if ranOut s.lossHold then [.lossHoldExpiry] else []) ++
      (if ranOut s.alignHold then [.alignmentHoldExpiry] else [])

/-- The event taken among those due: the only one, or one that a free value picks, since the manual orders them in no
rule (log entry 2). -/
def State.dueNext (s : State) : Option Instr :=
  match s.due with
  | [] => none
  | [c] => some c
  | c :: more => some ((c :: more)[Config.duePick s.draws % (more.length + 1)]?.getD c)

/-- A free value is drawn. -/
def State.draw (s : State) : State := { s with draws := s.draws + 1 }

/-! ## One millisecond -/

/-- One millisecond of what a classifier times. -/
def Classifier.tick : Classifier → Classifier
  | .closure n => .closure (n + 1)
  | .breaking n => .breaking (n + 1)
  | .atRest => .atRest
  | .make => .make

/-- One millisecond of a pulse or a gap. -/
def Injector.tick : Injector → Injector
  | .pulse n => .pulse (n - 1)
  | .gap n => .gap (n - 1)
  | .idle => .idle

/-- One millisecond at a port: the make timer runs in a make alone (R32). -/
def Port.tick (q : Port) : Port :=
  { q with
    classifier := q.classifier.tick
    makeTimer := if q.classifier = .make then q.makeTimer.map (· + 1) else q.makeTimer
    injector := q.injector.tick }

/-- One millisecond of a timer that may be stopped. -/
def tickLeft (left : Option Nat) : Option Nat := left.map (· - 1)

/-- One millisecond of the timers of a binding. -/
def Binding.tick (b : Binding) : Binding :=
  { b with tAccept := tickLeft b.tAccept, tRingwait := tickLeft b.tRingwait, tRingmax := tickLeft b.tRingmax,
           tRelease := tickLeft b.tRelease }

/-- One millisecond of an entry: a timer that runs on is no write of the record, and the stored check stays. -/
def Entry.tick (r : Entry) : Entry := { r with binding := r.binding.map Binding.tick }

/-- One millisecond of the provisioning engine. -/
def Engine.tick : Engine → Engine
  | .walk w => .walk { w with left := w.left - 1 }
  | .storeClear n => .storeClear (n - 1)
  | .idle => .idle

/-- One millisecond passes. While the store clear runs, it alone goes on (R206). -/
def State.tick (s : State) : State :=
  if s.storeClearing then { s with engine := s.engine.tick }
  else
    { s with
      ports := s.ports.map Port.tick
      entries := s.entries.map Entry.tick
      owq := s.owq.map fun w => { w with left := w.left - 1 }
      ringList := s.ringList.map fun r => { r with left := r.left - 1 }
      bus := s.bus.map fun h => { h with left := h.left - 1 }
      engine := s.engine.tick
      sweepLeft := s.sweepLeft - 1
      lossHold := tickLeft s.lossHold
      alignHold := tickLeft s.alignHold }

end Sys2Proof.Machine
end

