-- ==== Sys2Proof/Machine/LineSide.lean ====
section
/-!
DEFINITION. Machine/LineSide.lean: the loop reports, the hook declarations, digits and flashes, and the meter pulses of a
port (2, 7.2).
-/
namespace Sys2Proof.Machine

/-! ## Digits and flashes -/

/-- A digit or flash is appended to the early list, or discarded with a count when four entries stand there (R36). -/
def State.appendEarly (s : State) (e : EntryNo) (b : Binding) (d : Dialled) : State :=
  if 4 ≤ (b.early.getD []).length then
    { s with counters := { s.counters with earlyOverflows := bump s.counters.earlyOverflows } }
  else s.writeEntry e (some { b with early := some (b.early.getD [] ++ [d]) })

/-- A digit or flash yielded by a port is delivered (R36). The binding entry is read (R177, log entry 13); a damaged one
takes the place of the delivery (R182). -/
def State.deliver (s : State) (p : PortNo) (d : Dialled) : State :=
  if (s.port p).sup = .bound then
    match s.call p with
    | none => s
    | some (e, b) =>
      match b.phase with
      | .seizing => if (s.entry e).damaged then s.bindingFailure e else s.appendEarly e b d
      | .dialling => if (s.entry e).damaged then s.bindingFailure e else s.send (d.message b.handle)
      | .connected => if (s.entry e).damaged then s.bindingFailure e else s.send (d.message b.handle)
      | _ => s
  else s

/-- The digit a pulse count gives (R34): 1 to 9, 10 as 0, and 11 as BAD. -/
def digitOfPulses (n : Nat) : Digit := if h : n < 10 then .num ⟨n, h⟩ else if n = 10 then .num 0 else .bad

/-- The count returns to 0 and the make timer stops (R34, R35). -/
def State.clearCount (s : State) (p : PortNo) : State :=
  s.setPort p { s.port p with pulses := 0, makeTimer := none }

/-- DIGIT_END: the make timer reaches 250 ms (R34). It runs only in a make with a count of 1 or more. -/
def execDigitEnd (p : PortNo) (s : State) : Result :=
  .next <|
    match (s.port p).classifier, (s.port p).makeTimer with
    | .make, some _ =>
      if (s.port p).pulses = 0 then s.clearCount p
      else (s.clearCount p).deliver p (.digit (digitOfPulses (s.port p).pulses))
    | _, _ => s

/-- A break classified as a flash ends (R35). -/
def State.flash (s : State) (p : PortNo) : State :=
  let t := s.clearCount p
  if 1 ≤ (s.port p).pulses then (t.deliver p (.digit .bad)).deliver p .flash else t.deliver p .flash

/-! ## Off-hook -/

/-- The port joins the tail of the origin wait queue (R97). -/
def State.joinQueue (s : State) (p : PortNo) : State :=
  let t := { s with
    owq := s.owq ++ [({ port := p, left := s.params.tWait * secondMs } : Waiting)]
    counters := { s.counters with queued := bump s.counters.queued } }
  t.place p .waitSlot

/-- The checks of an origination attempt and its outcome, the attempt already counted (R38). -/
def State.originate (s : State) (p : PortNo) : State :=
  if (s.line p).withdrawn then s.quarantine p
  else if (s.line p).damaged then s.lineActions p
  else if (s.line p).status ≠ .active then s.place p .lockout
  else if s.link ≠ .up then s.place p .lockout
  else if s.hasClearing p then s.joinQueue p
  else
    match s.admitSlot (s.line p).cls with
    | (t, none) => t.joinQueue p
    | (t, some n) => t.seize p n

/-- The answer of a binding that waits to ring or rings (R80, R130). -/
def State.answerRing (s : State) (e : EntryNo) (b : Binding) : State :=
  let t := s.send (.answered b.handle)
  let u := t.writeEntry e (some { b with phase := .connected, tRingwait := none, tRingmax := none })
  u.leaveRinging State.budgetPass b.handle

/-- An off-hook on a BOUND port (R39, R182). -/
def State.offHookBound (s : State) (p : PortNo) : State :=
  match s.call p with
  | none => s
  | some (e, b) =>
    match b.phase with
    | .ringWait => if (s.entry e).damaged then s.bindingFailure e else s.answerRing e b
    | .ringing => if (s.entry e).damaged then s.bindingFailure e else s.answerRing e b
    | _ => s

/-- An attempt is counted (R38, R110). -/
def State.countAttempt (s : State) : State :=
  { s with counters := { s.counters with attempted := bump s.counters.attempted } }

/-- The off-hook is declared: the hook becomes OFF in a make with count 0, and it is handled by the supervision state
(R30, R38, R39, R43). -/
def State.offHook (s : State) (p : PortNo) : State :=
  let t := s.setPort p { s.port p with hook := .off, classifier := .make, pulses := 0, makeTimer := none }
  match (s.port p).sup with
  | .idle => t.countAttempt.originate p
  | .bound => t.offHookBound p
  | _ => t

/-- OFF_HOOK_DECLARED: the closure being timed reaches its T_seize (R30, log entry 3). -/
def execOffHookDeclared (p : PortNo) (s : State) : Result :=
  .next <|
    match (s.port p).classifier with
    | .closure _ => s.offHook p
    | _ => s

/-! ## On-hook -/

/-- An on-hook on a BOUND port is the line clear (R40, R87, R182). -/
def State.onHookBound (s : State) (p : PortNo) : State :=
  match s.call p with
  | none => s
  | some (e, b) =>
    match b.phase with
    | .seizing => if (s.entry e).damaged then s.bindingFailure e else s.enterClearing e b .lineClear fun t => t.toIdle p
    | .dialling => if (s.entry e).damaged then s.bindingFailure e else s.enterClearing e b .lineClear fun t => t.toIdle p
    | .connected => if (s.entry e).damaged then s.bindingFailure e else s.enterClearing e b .lineClear fun t => t.toIdle p
    | _ => s

/-- An on-hook on a waiting port is an abandon (R41). -/
def State.abandon (s : State) (p : PortNo) : State :=
  let t := s.leaveQueue p
  { t with counters := { t.counters with abandons := bump t.counters.abandons } }.toIdle p

/-- The on-hook is declared: the hook becomes ON, a partial digit is lost, and it is handled by the supervision state
(R33, R40 to R43). -/
def State.onHook (s : State) (p : PortNo) : State :=
  let t := s.setPort p { s.port p with hook := .on, classifier := .atRest, pulses := 0, makeTimer := none }
  match (s.port p).sup with
  | .bound => t.onHookBound p
  | .waitSlot => t.abandon p
  | .lockout => t.toIdle p
  | _ => t

/-- ON_HOOK_DECLARED: the break being timed reaches 900 ms (R33, log entry 3). -/
def execOnHookDeclared (p : PortNo) (s : State) : Result :=
  .next <|
    match (s.port p).classifier with
    | .breaking _ => s.onHook p
    | _ => s

/-! ## Loop reports -/

/-- The line closes or opens (R24). -/
def State.setLoop (s : State) (p : PortNo) (closed : Bool) : State :=
  s.setPort p { s.port p with lineClosed := closed }

/-- The port circuit senses the loop: the port is fed, or is on the test bus (R24). -/
def State.senses (s : State) (p : PortNo) : Bool := (s.port p).sup.fed && !s.storeClearing

/-- The loop closes on a sensed port (R30, R32): a closure starts from hook ON; a break of this length ends. -/
def State.closeLoop (s : State) (p : PortNo) (ms : Nat) : State :=
  let q := s.port p
  match q.classifier with
  | .breaking n =>
    if n + ms < pulseMin then s.setPort p { q with classifier := .make }
    else if n + ms < flashMin then
      s.setPort p { q with classifier := .make, pulses := min (q.pulses + 1) 11, makeTimer := some 0 }
    else if n + ms < onHookBreak then (s.setPort p { q with classifier := .make }).flash p
    else
      let t := s.onHook p
      if (t.port p).sup.fed then t.setPort p { t.port p with classifier := .closure 0 } else t
  | .atRest =>
    match q.hook with
    | .on => s.setPort p { q with classifier := .closure 0 }
    | .off => s
  | _ => s

/-- LOOP_CLOSED (R24, R30, R32, R35). A line that is closed already makes no change. An unfed port senses nothing: its
line's condition is only recorded (log entry 5). -/
def execLoopClosed (p : PortNo) (ms : Nat) (s : State) : Result :=
  .next <|
    if (s.port p).lineClosed then s
    else
      let t := s.setLoop p true
      if t.senses p then t.closeLoop p ms else t

/-- LOOP_OPEN (R24, R30, R32): a closure being timed is ignored; from hook OFF a break starts, the make timer standing
still. -/
def execLoopOpen (p : PortNo) (s : State) : Result :=
  .next <|
    if (s.port p).lineClosed then
      let t := s.setLoop p false
      if t.senses p then
        match (t.port p).classifier with
        | .closure _ => t.setPort p { t.port p with classifier := .atRest }
        | .make => t.setPort p { t.port p with classifier := .breaking 0 }
        | _ => t
      else t
    else s

/-! ## Meter pulses -/

/-- PULSE_END: the injector goes to GAP (R140). -/
def execPulseEnd (p : PortNo) (s : State) : Result :=
  .next <|
    match (s.port p).injector with
    | .pulse _ => s.setPort p { s.port p with injector := .gap meterPulseMs }
    | _ => s

/-- The gap of a port ends with a live binding: the next pulse starts, the binding record being read for it, or the
injector goes to IDLE (R140, R141). -/
def State.endGap (s : State) (p : PortNo) (e : EntryNo) (b : Binding) : State :=
  let t := s.setPort p { s.port p with injector := .idle }
  if 1 ≤ b.pendingPulses ∧ s.mayPulse p b.phase then
    if (s.entry e).damaged then t.bindingFailure e else t.startTrain e b
  else t

/-- GAP_END (R140, R141). -/
def execGapEnd (p : PortNo) (s : State) : Result :=
  .next <|
    match (s.port p).injector with
    | .gap _ =>
      match s.call p with
      | some (e, b) => s.endGap p e b
      | none => s.setPort p { s.port p with injector := .idle }
    | _ => s

end Sys2Proof.Machine
end

