-- ==== Sys2Proof/WellFormed.lean ====
section
/-!
DEFINITION. WellFormed.lean: which commands the channel and the part can produce at all. A field of a message is the
octets R188 gives it, so a number that does not fit its octets names no message; a handle is 1 to 255 (R66); a record
location is 0 to 77 (R184). Values that fit their octets but lie outside what a rule admits are well formed: the rule
answers them.
-/
namespace Sys2Proof

/-- A number that one octet carries. -/
def isOctet (n : Nat) : Bool := decide (n < 256)

/-- A number that two octets carry. -/
def isOctets2 (n : Nat) : Bool := decide (n < 65536)

/-- A number that three octets carry: a line key (R1). -/
def isOctets3 (n : Nat) : Bool := decide (n < 16777216)

/-- The value fits the octets of its form (R188); an unknown form is an octet that names none of the five forms. -/
def Address.wf : Address → Bool
  | .port v => isOctet v
  | .shortKey v => isOctets2 v
  | .longKey v => isOctets3 v
  | .cursor => true
  | .handle v => isOctet v
  | .unknown f => isOctet f && decide (5 ≤ f)

/-- Every field of the written record fits its octets (R188). -/
def LineWrite.wf (w : LineWrite) : Bool :=
  isOctet w.status && isOctets3 w.key && isOctet w.cls && isOctet w.load && isOctet w.cadence

/-- A live handle is 1 to 255 (R66). -/
def isHandle (h : Nat) : Bool := decide (1 ≤ h) && decide (h ≤ 255)

/-- The command can be sent or can happen. -/
def Instr.wf : Instr → Bool
  | .offer t a c => isOctet t && a.wf && c.all isOctet
  | .grant t a => isOctet t && a.wf
  | .deny t a => isOctet t && a.wf
  | .answer t a => isOctet t && a.wf
  | .clear t a c => isOctet t && a.wf && isOctet c
  | .cleared t a => isOctet t && a.wf
  | .meter t a n => isOctet t && a.wf && isOctet n
  | .blockSlot t n => isOctet t && isOctet n
  | .unblockSlot t n => isOctet t && isOctet n
  | .testConnect t a _ => isOctet t && a.wf
  | .testRelease t a => isOctet t && a.wf
  | .writeLine t a w => isOctet t && a.wf && w.wf
  | .readLine t a => isOctet t && a.wf
  | .ceaseLine t a => isOctet t && a.wf
  | .clearRange t f l => isOctet t && isOctet f && isOctet l
  | .setCursor t p => isOctet t && isOctet p
  | .setAdvance t _ _ d => isOctet t && isOctet d
  | .setPrefix t v => isOctet t && isOctet v
  | .setCadence t n ds => isOctet t && isOctet n && ds.all isOctet && decide (ds.length ≤ 58)
  | .readCadence t n => isOctet t && isOctet n
  | .setParam t p v => isOctet t && isOctet p && isOctets2 v
  | .readParam t => isOctet t
  | .queryLine t a => isOctet t && a.wf
  | .querySlots t => isOctet t
  | .readCounters t _ => isOctet t
  | .resetCabinet t => isOctet t
  | .badMessage t => isOctet t
  | .badFrame => true
  | .loopClosed _ _ => true
  | .loopOpen _ => true
  | .offHookDeclared _ => true
  | .onHookDeclared _ => true
  | .digitEnd _ => true
  | .segmentEnd h => isHandle h
  | .pulseEnd _ => true
  | .gapEnd _ => true
  | .tAcceptExpiry h => isHandle h
  | .tRingwaitExpiry h => isHandle h
  | .tRingmaxExpiry h => isHandle h
  | .tReleaseExpiry h => isHandle h
  | .tWaitExpiry _ => true
  | .tTestExpiry => true
  | .rangeStep => true
  | .sweepStep => true
  | .senseReading _ _ => true
  | .storageUpset _ => true
  | .framerLost => true
  | .framerAligned => true
  | .lossHoldExpiry => true
  | .alignmentHoldExpiry => true
  | .resetLineAsserted => true
  | .resetLineReleased => true
  | .powerOn _ _ => true
  | .storeClearEnd failed => failed.all (fun l => decide (l < 78)) && decide failed.Nodup
  | .octetTaken o => isOctet o

end Sys2Proof
end

