-- ==== Sys2Proof/Decode.lean ====
section
/-!
DEFINITION. Decode.lean: the words of the opcode table, and the messages of the exchange read from their frames and
written into them (11.1).
-/
namespace Sys2Proof

/-- The command a word of the opcode table spells. The table gives no row any bits (every row's "fields" is empty), so
no word spells a command (log entry 20). -/
def decodeTableWord (_nbits _w : Nat) : Option Instr := none

/-! ## Reading the body of a message (R188, R190) -/

/-- Two octets, most significant first. -/
def octets2 (a b : Nat) : Nat := a * 256 + b

/-- Three octets, most significant first. -/
def octets3 (a b c : Nat) : Nat := (a * 256 + b) * 256 + c

/-- A flag octet: 0 for clear and any other value for set. -/
def flagOf (o : Nat) : Bool := decide (o ≠ 0)

/-- An address at the head of a body, with what follows it. The octet of the CURSOR form is not read; a form octet that
names no form has no size, and nothing of the body is read after it (R190). -/
def readAddress : List Nat → Option (Address × List Nat)
  | 0 :: v :: rest => some (.port v, rest)
  | 1 :: a :: b :: rest => some (.shortKey (octets2 a b), rest)
  | 2 :: a :: b :: c :: rest => some (.longKey (octets3 a b c), rest)
  | 3 :: _ :: rest => some (.cursor, rest)
  | 4 :: v :: rest => some (.handle v, rest)
  | f :: _ => if 5 ≤ f then some (.unknown f, []) else none
  | [] => none

/-- A message that opens with an address: `bare` is the message of a form that names none, taken without the size check
(R190); `full` reads what follows a known form. -/
def withAddress (body : List Nat) (bare : Address → Instr) (full : Address → List Nat → Option Instr) : Option Instr :=
  match readAddress body with
  | some (.unknown f, _) => some (bare (.unknown f))
  | some (a, rest) => full a rest
  | none => none

/-- Nothing follows. -/
def atEnd (i : Instr) : List Nat → Option Instr
  | [] => some i
  | _ => none

/-- The record of a WRITE_LINE after its address (11.7). -/
def readLineWrite : List Nat → Option LineWrite
  | [st, k2, k1, k0, cl, ld, cd, rv, mp, kp, mr] =>
    some { status := st, key := octets3 k2 k1 k0, cls := cl, load := ld, cadence := cd, reverse := flagOf rv,
           meterPulse := flagOf mp, keep := flagOf kp, meterReset := flagOf mr }
  | _ => none

/-- A WRITE_LINE without a record, for an address of no form; its record is never looked at (R9, check 2). -/
def noRecord : LineWrite :=
  { status := 0, key := 0, cls := 0, load := 0, cadence := 0, reverse := false, meterPulse := false, keep := false,
    meterReset := false }

/-- The message of a type, a tag and a body; absent when the type names no message of the exchange or the body is not of
its size (R190). -/
def decodeBody (type tag : Nat) (body : List Nat) : Option Instr :=
  match type with
  | 1 => withAddress body (.offer tag · none) fun a rest =>
      match rest with
      | [0] => some (.offer tag a none)
      | [p, c] => if p ≠ 0 then some (.offer tag a (some c)) else none
      | _ => none
  | 2 => withAddress body (.grant tag ·) fun a => atEnd (.grant tag a)
  | 3 => withAddress body (.deny tag ·) fun a => atEnd (.deny tag a)
  | 4 => withAddress body (.answer tag ·) fun a => atEnd (.answer tag a)
  | 5 => withAddress body (.clear tag · 0) fun a rest =>
      match rest with
      | [c] => some (.clear tag a c)
      | _ => none
  | 6 => withAddress body (.cleared tag ·) fun a => atEnd (.cleared tag a)
  | 7 => withAddress body (.meter tag · 0) fun a rest =>
      match rest with
      | [n] => some (.meter tag a n)
      | _ => none
  | 8 =>
    match body with
    | [n] => some (.blockSlot tag n)
    | _ => none
  | 9 =>
    match body with
    | [n] => some (.unblockSlot tag n)
    | _ => none
  | 10 => withAddress body (.testConnect tag · false) fun a rest =>
      match rest with
      | [f] => some (.testConnect tag a (flagOf f))
      | _ => none
  | 11 => withAddress body (.testRelease tag ·) fun a => atEnd (.testRelease tag a)
  | 12 => withAddress body (.writeLine tag · noRecord) fun a rest => (readLineWrite rest).map (.writeLine tag a ·)
  | 13 => withAddress body (.readLine tag ·) fun a => atEnd (.readLine tag a)
  | 14 => withAddress body (.ceaseLine tag ·) fun a => atEnd (.ceaseLine tag a)
  | 15 =>
    match body with
    | [f, l] => some (.clearRange tag f l)
    | _ => none
  | 16 =>
    match body with
    | [p] => some (.setCursor tag p)
    | _ => none
  | 17 =>
    match body with
    | [w, r, d] => some (.setAdvance tag (flagOf w) (flagOf r) d)
    | _ => none
  | 18 =>
    match body with
    | [v] => some (.setPrefix tag v)
    | _ => none
  | 19 =>
    match body with
    | n :: count :: ds => if ds.length = count then some (.setCadence tag n ds) else none
    | _ => none
  | 20 =>
    match body with
    | [n] => some (.readCadence tag n)
    | _ => none
  | 21 =>
    match body with
    | [p, a, b] => some (.setParam tag p (octets2 a b))
    | _ => none
  | 22 => atEnd (.readParam tag) body
  | 23 => withAddress body (.queryLine tag ·) fun a => atEnd (.queryLine tag a)
  | 24 => atEnd (.querySlots tag) body
  | 25 =>
    match body with
    | [f] => some (.readCounters tag (flagOf f))
    | _ => none
  | 26 => atEnd (.resetCabinet tag) body
  | _ => none

/-- The message of a frame whose octet sum is good: its octets are length, type, tag, body and check. One that is no
message of the exchange, or does not fit its type, is BAD_MESSAGE with its tag (R190). -/
def decodeFrame : List Nat → Instr
  | _ :: type :: tag :: rest =>
    match decodeBody type tag rest.dropLast with
    | some i => i
    | none => .badMessage tag
  | _ => .badMessage 0

/-! ## Writing a message of the exchange (R188) -/

/-- A number in two octets, most significant first. -/
def toOctets2 (n : Nat) : List Nat := [n / 256, n % 256]

/-- A number in three octets, most significant first. -/
def toOctets3 (n : Nat) : List Nat := [n / 65536, n / 256 % 256, n % 256]

/-- A flag as its octet; 1 stands for set (R188, log entry 33). -/
def flagOctet (b : Bool) : Nat := if b then 1 else 0

/-- An address as its octets. -/
def writeAddress : Address → List Nat
  | .port v => [0, v]
  | .shortKey v => 1 :: toOctets2 v
  | .longKey v => 2 :: toOctets3 v
  | .cursor => [3, 0]
  | .handle v => [4, v]
  | .unknown f => [f]

/-- The octets of a WRITE_LINE's record. -/
def writeLineWrite (w : LineWrite) : List Nat :=
  [w.status] ++ toOctets3 w.key ++
    [w.cls, w.load, w.cadence, flagOctet w.reverse, flagOctet w.meterPulse, flagOctet w.keep, flagOctet w.meterReset]

/-- The type, tag and body of a message from the exchange; absent for the commands that are no such message. A presence
octet is written as 1 (log entry 33). -/
def encodeBody : Instr → Option (Nat × Nat × List Nat)
  | .offer t a none => some (1, t, writeAddress a ++ [0])
  | .offer t a (some c) => some (1, t, writeAddress a ++ [1, c])
  | .grant t a => some (2, t, writeAddress a)
  | .deny t a => some (3, t, writeAddress a)
  | .answer t a => some (4, t, writeAddress a)
  | .clear t a c => some (5, t, writeAddress a ++ [c])
  | .cleared t a => some (6, t, writeAddress a)
  | .meter t a n => some (7, t, writeAddress a ++ [n])
  | .blockSlot t n => some (8, t, [n])
  | .unblockSlot t n => some (9, t, [n])
  | .testConnect t a f => some (10, t, writeAddress a ++ [flagOctet f])
  | .testRelease t a => some (11, t, writeAddress a)
  | .writeLine t a w => some (12, t, writeAddress a ++ writeLineWrite w)
  | .readLine t a => some (13, t, writeAddress a)
  | .ceaseLine t a => some (14, t, writeAddress a)
  | .clearRange t f l => some (15, t, [f, l])
  | .setCursor t p => some (16, t, [p])
  | .setAdvance t w r d => some (17, t, [flagOctet w, flagOctet r, d])
  | .setPrefix t v => some (18, t, [v])
  | .setCadence t n ds => some (19, t, n :: ds.length :: ds)
  | .readCadence t n => some (20, t, [n])
  | .setParam t p v => some (21, t, p :: toOctets2 v)
  | .readParam t => some (22, t, [])
  | .queryLine t a => some (23, t, writeAddress a)
  | .querySlots t => some (24, t, [])
  | .readCounters t f => some (25, t, [flagOctet f])
  | .resetCabinet t => some (26, t, [])
  | _ => none

/-- The check octet: the sum of all octets with it is a multiple of 256 (11.1). -/
def checkOctet (octets : List Nat) : Nat := (256 - octets.sum % 256) % 256

/-- The frame of a type, a tag and a body (11.1). -/
def frameOf (type tag : Nat) (body : List Nat) : List Nat :=
  let head := (body.length + 4) :: type :: tag :: body
  head ++ [checkOctet head]

/-- The frame of a message from the exchange. -/
def encodeFrame (i : Instr) : Option (List Nat) :=
  match encodeBody i with
  | some (type, tag, body) => some (frameOf type tag body)
  | none => none

end Sys2Proof
end

