-- ==== Sys2Proof/Machine/Cadences.lean ====
section
/-!
DEFINITION. Machine/Cadences.lean: SET_CADENCE, READ_CADENCE and SEGMENT_END (6.1).
-/
namespace Sys2Proof.Machine

/-- SET_CADENCE: the checks of R113 in order; each duration is clamped to 1 to 100. -/
def execSetCadence (tag : Nat) (cadence : Nat) (durations : List Nat) (s : State) : Result :=
  s.takeMessage fun s =>
    if s.busy then s.ack tag .busy
    else
      match cadenceOfNumber cadence with
      | none => s.ack tag .badValue
      | some n =>
        if durations.length = 2 ∨ durations.length = 4 ∨ durations.length = 6 then
          let ds := durations.map (clamp 1 100)
          { s with cadences := s.cadences.set n ds }.ack tag (if ds = durations then .ok else .clamped)
        else s.ack tag .badValue

/-- READ_CADENCE: the cadence and the ringing budget as they stand (R115). -/
def execReadCadence (tag : Nat) (cadence : Nat) (s : State) : Result :=
  s.takeMessage fun s =>
    match cadenceOfNumber cadence with
    | none => s.ack tag .badValue
    | some n =>
      s.reply (.cadenceData tag
        { cadence := n, durations := s.cadences[n], g := s.params.g, available := s.available,
          committed := s.committed, queue := s.ringQueue.map (·.handle),
          ringing := s.ringList.map fun r => (r.handle, r.segment) })

/-- The entry of a ringing binding after a segment end: the next index, or 0 at or beyond the count of its cadence as the
table holds it, with the full duration of the new segment (R112). -/
def State.nextSegment (s : State) (r : RingEntry) : RingEntry :=
  let i := if (s.cadences[r.cadence]).length ≤ r.segment + 1 then 0 else r.segment + 1
  { r with segment := i, left := s.segmentMs r.cadence i }

/-- SEGMENT_END of the ringing binding of a handle (R112). It reads and writes no binding record. -/
def execSegmentEnd (handle : Nat) (s : State) : Result :=
  .next { s with ringList := s.ringList.map fun r => if r.handle = handle then s.nextSegment r else r }

end Sys2Proof.Machine
end

