-- ==== Sys2Proof/Machine/Calls.lean ====
section
/-!
DEFINITION. Machine/Calls.lean: the call messages OFFER, GRANT, DENY, ANSWER, CLEAR, CLEARED and METER (4, 7).
-/
namespace Sys2Proof.Machine

/-! ## OFFER -/

/-- An OFFER is refused with a reason (R77). -/
def State.refuseOffer (s : State) (tag : Nat) (reason : Code) : State := s.reply (.refused tag reason)

/-- The counter of offers refused for want of a slot rises (R53, R77 check 9). -/
def State.countNoSlot (s : State) : State :=
  { s with counters := { s.counters with noSlot := bump s.counters.noSlot } }

/-- An OFFER that passed every check creates its binding, sends BOUND, joins the ring queue at the tail, and the budget
pass runs (R78). R67 shows that the table is never full here (log entry 17). -/
def State.bindOffer (s : State) (tag : Nat) (p : PortNo) (n : SlotNo) (cadence : Option Nat) : State :=
  let c := match cadence with
    | some v => clampCadence v
    | none => (s.line p).cadence
  if s.emptyEntry.isNone then s.refuseOffer tag .noSlot
  else
    s.create n (s.terminating p n c) p fun b t =>
      let u := t.reply (.bound tag b.handle (slotNumber n))
      { u with ringQueue := u.ringQueue ++
          [({ handle := b.handle, port := p, cadence := c, load := (s.line p).load } : QueueEntry)] }.budgetPass

/-- Checks 6 to 9 of an OFFER, the record being in use (R77). -/
def State.offerPort (s : State) (tag : Nat) (p : PortNo) (cadence : Option Nat) : State :=
  match (s.port p).sup with
  | .test => s.refuseOffer tag .underTest
  | .parked => s.refuseOffer tag .parked
  | .idle =>
    if s.hasClearing p then s.refuseOffer tag .lineBusy
    else
      match s.admitSlot (s.line p).cls with
      | (t, none) => t.countNoSlot.refuseOffer tag .noSlot
      | (t, some n) => t.bindOffer tag p n cadence
  | _ => s.refuseOffer tag .lineBusy

/-- OFFER: the checks of R77 in order, then R78. -/
def execOffer (tag : Nat) (a : Address) (cadence : Option Nat) (s : State) : Result :=
  s.takeMessage fun s =>
    match s.resolveNoCursor a with
    | .fails code => s.refuseOffer tag code
    | .port p =>
      if (s.line p).withdrawn then s.refuseOffer tag .quarantined
      else if (s.line p).damaged then (s.lineActions p).refuseOffer tag .storeFault
      else
        match (s.line p).status with
        | .vacant => s.refuseOffer tag .vacant
        | .ceasing => s.refuseOffer tag .vacant
        | .fullbar => s.refuseOffer tag .barred
        | _ => s.offerPort tag p cadence

/-! ## GRANT, DENY, ANSWER -/

/-- GRANT: SEIZING to DIALLING; T_accept stops and the early list is sent and emptied (R72). -/
def execGrant (tag : Nat) (a : Address) (s : State) : Result :=
  s.takeMessage fun s => s.withHandle tag a fun e b s =>
    match b.phase with
    | .seizing =>
      let t := s.release.writeEntry e (some { b with phase := .dialling, tAccept := none, early := none })
      ((b.early.getD []).map (Dialled.message b.handle)).foldl State.send t
    | _ => s.ack tag .wrongPhase

/-- DENY: a SEIZING binding retires normally (R73). -/
def execDeny (tag : Nat) (a : Address) (s : State) : Result :=
  s.takeMessage fun s => s.withHandle tag a fun e b s =>
    match b.phase with
    | .seizing => s.release.retire e b
    | _ => s.ack tag .wrongPhase

/-- ANSWER: DIALLING to CONNECTED, reversal applied when the record of the ORIG line asks for it; a damaged record is
found here (R75). -/
def execAnswer (tag : Nat) (a : Address) (s : State) : Result :=
  s.takeMessage fun s => s.withHandle tag a fun e b s =>
    match b.phase with
    | .dialling =>
      let r := s.line b.port
      if r.damaged && !r.withdrawn then (s.lineActions b.port).ack tag .storeFault
      else
        s.release.writeEntry e
          (some { b with phase := .connected, reversal := decide (b.direction = .orig) && r.reverse && !r.withdrawn })
    | _ => s.ack tag .wrongPhase

/-! ## CLEAR, CLEARED -/

/-- CLEAR: in CLEARING it is taken as the CLEARED (R86); else CLEARED is replied and the binding retires (R85). The
cause is not looked at. -/
def execClear (tag : Nat) (a : Address) (_cause : Nat) (s : State) : Result :=
  s.takeMessage fun s => s.withHandle tag a fun e b s =>
    match b.phase with
    | .clearing => s.release.retire e b
    | _ => (s.reply (.cleared tag b.handle b.meterCount)).retire e b

/-- CLEARED: a binding in CLEARING retires normally (R86). -/
def execCleared (tag : Nat) (a : Address) (s : State) : Result :=
  s.takeMessage fun s => s.withHandle tag a fun e b s =>
    match b.phase with
    | .clearing => s.release.retire e b
    | _ => s.ack tag .wrongPhase

/-! ## METER -/

/-- METER in DIALLING or CONNECTED, the meter count already raised: the line record is read for its meter-pulse flag
(R139). -/
def State.meterPulses (s : State) (tag : Nat) (count : Nat) (e : EntryNo) (b : Binding) : State :=
  let r := s.line b.port
  if r.damaged && !r.withdrawn then (s.lineActions b.port).ack tag .storeFault
  else if r.meterPulse && !r.withdrawn then
    let c := { b with pendingPulses := satAdd pulsesMax b.pendingPulses count }
    (s.release.writeEntry e (some c)).startTrain e c
  else s.release

/-- METER: the count in range, then by phase (R137). -/
def execMeter (tag : Nat) (a : Address) (count : Nat) (s : State) : Result :=
  s.takeMessage fun s => s.withHandle tag a fun e b s =>
    if count < 1 ∨ 15 < count then s.ack tag .badValue
    else
      let c := { b with meterCount := satAdd countMax b.meterCount count }
      match b.phase with
      | .dialling => (s.writeEntry e (some c)).meterPulses tag count e c
      | .connected => (s.writeEntry e (some c)).meterPulses tag count e c
      | .clearing => s.release.writeEntry e (some c)
      | _ => s.ack tag .wrongPhase

end Sys2Proof.Machine
end

