-- ==== Sys2Proof/Machine/Parameters.lean ====
section
/-!
DEFINITION. Machine/Parameters.lean: SET_PARAM, READ_PARAM, READ_COUNTERS and QUERY_LINE (11.4, 11.5, 2.5).
-/
namespace Sys2Proof.Machine

/-- A change of a channel's enable flag clears its fault and run count without a report (R152). -/
def State.channelChanged (s : State) (c : Channel) (changed : Bool) : State :=
  if changed then { s with sense := s.sense.setFault c 0 false } else s

/-- What a SET_PARAM does after its value is stored and its ACK formed (R202, R152, R54). `before` is the parameters it
found. -/
def State.paramEffects (s : State) (p : Param) (before : Params) : State :=
  match p with
  | .g => s.recompute
  | .bFull => s.recompute
  | .bCut => s.recompute
  | .tHot => s.recompute.evalBand
  | .tTrip => s.recompute.evalBand
  | .reserve => if s.params.reserve < before.reserve then s.service else s
  | .battery =>
    let t := (s.channelChanged .battery (before.battery != s.params.battery)).recompute
    if before.battery && !s.params.battery then t.enterPower .normal else t
  | .temperature =>
    ((s.channelChanged .temperature (before.temperature != s.params.temperature)).recompute).evalBand
  | _ => s

/-- SET_PARAM: the checks of R201 in order, then R202; a POWER report comes last (R160). -/
def execSetParam (tag : Nat) (param value : Nat) (s : State) : Result :=
  s.takeMessage fun s =>
    if s.busy then s.ack tag .busy
    else
      match paramOfOctet param with
      | none => s.ack tag .badValue
      | some p =>
        let v := p.clampValue value
        let q := s.params.set p v
        if q.ordered then
          let t := { s with params := q }.ack tag (if v = value then .ok else .clamped)
          (t.paramEffects p s.params).reportPower s.sense
        else s.ack tag .badValue

/-- READ_PARAM (R203). -/
def execReadParam (tag : Nat) (s : State) : Result :=
  s.takeMessage fun s => s.reply (.paramData tag s.params)

/-- READ_COUNTERS (R205). -/
def execReadCounters (tag : Nat) (clearAfter : Bool) (s : State) : Result :=
  s.takeMessage fun s =>
    let t := s.reply (.counterData tag s.counters)
    if clearAfter then { t with counters := Counters.zero } else t

/-- The handle and phase of the port's live binding; handle 0 when there is none (R46). -/
def State.callView (s : State) (p : PortNo) : Nat × Option Phase :=
  match s.call p with
  | some (_, b) => (b.handle, some b.phase)
  | none => (0, none)

/-- LINE_STATE of a port (R46). -/
def State.lineStateView (s : State) (p : PortNo) : LineStateView :=
  { port := p, sup := (s.port p).sup, hook := s.reportedHook p, parkPending := (s.port p).parkPending,
    latch := s.latch p, applied := s.applied p, tone := s.tone p, call := s.callView p,
    status := if (s.line p).withdrawn then none else some (s.line p).status }

/-- QUERY_LINE (R46). -/
def execQueryLine (tag : Nat) (a : Address) (s : State) : Result :=
  s.takeMessage fun s =>
    match s.resolveNoCursor a with
    | .fails code => s.ack tag code
    | .port p =>
      if (s.line p).damaged && !(s.line p).withdrawn then (s.lineActions p).ack tag .storeFault
      else s.reply (.lineState tag (s.lineStateView p))

end Sys2Proof.Machine
end

