-- ==== Sys2Proof/Machine/Provisioning.lean ====
section
/-!
DEFINITION. Machine/Provisioning.lean: WRITE_LINE, READ_LINE, CEASE_LINE, CLEAR_RANGE and its steps, SET_CURSOR,
SET_ADVANCE and SET_PREFIX (1, 11.3).
-/
namespace Sys2Proof.Machine

/-- A request of the provisioning engine: BUSY while the engine is (R17). -/
def State.provision (s : State) (tag : Nat) (f : State → State) : State :=
  if s.busy then s.ack tag .busy else f s

/-! ## READ_LINE -/

/-- The record as LINE_DATA shows it (R8). -/
def LineRecord.view (r : LineRecord) : LineView :=
  { status := r.status, key := r.key, cls := r.cls, load := r.load, cadence := r.cadence, reverse := r.reverse,
    meterPulse := r.meterPulse, keep := r.keep, total := r.total }

/-- LINE_DATA of a port; the record is absent while it is withdrawn (R8). -/
def State.lineData (s : State) (tag : Nat) (p : PortNo) : Message :=
  .lineData tag p (s.port p).sup (s.reportedHook p) (if (s.line p).withdrawn then none else some (s.line p).view)

/-- READ_LINE (R8); LINE_DATA may move the cursor (R200). -/
def execReadLine (tag : Nat) (a : Address) (s : State) : Result :=
  s.takeMessage fun s =>
    match s.resolve a with
    | .fails code => s.ack tag code
    | .port p =>
      if (s.line p).damaged && !(s.line p).withdrawn then (s.lineActions p).ack tag .storeFault
      else (s.reply (s.lineData tag p)).moveCursor a s.advance.read

/-! ## Ceasing -/

/-- What a cease came to (R13, R14, R16, R19). -/
inductive CeaseOutcome where
  | already
  | madeVacant
  | madeCeasing
  | damaged
  deriving DecidableEq, Repr

/-- The cease of a port without a live binding, in one event (R13). -/
def State.ceaseNow (s : State) (p : PortNo) : State :=
  let t := ((s.leaveQueue p).vacate p).mark p false
  if (t.port p).sup = .test then t else t.place p .vacant

/-- The cease of a port whose record is withdrawn and that holds a live binding: the record becomes CEASING without a
key, and the quarantine ends (R16). -/
def State.ceaseWithdrawnCall (s : State) (p : PortNo) : State :=
  let t := s.writeLine p { s.line p with status := .ceasing, key := none }
  match (t.port p).sup with
  | .test => t
  | _ =>
    match (t.port p).hook with
    | .off => (t.mark p (t.parkable p)).place p .lockout
    | .on => (t.mark p false).place p (if t.parkable p then .parked else .idle)

/-- The cease of a port, as CEASE_LINE and a step of a range walk make it (R13, R14, R16). -/
def State.cease (s : State) (p : PortNo) : State × CeaseOutcome :=
  if (s.line p).withdrawn then
    if (s.call p).isSome then (s.ceaseWithdrawnCall p, .madeCeasing) else (s.ceaseNow p, .madeVacant)
  else if (s.line p).damaged then (s.lineActions p, .damaged)
  else if (s.line p).status = .vacant then (s, .already)
  else if (s.call p).isSome then (s.writeLine p { s.line p with status := .ceasing }, .madeCeasing)
  else (s.ceaseNow p, .madeVacant)

/-- CEASE_LINE (R13, R14, R16). -/
def execCeaseLine (tag : Nat) (a : Address) (s : State) : Result :=
  s.takeMessage fun s => s.provision tag fun s =>
    match s.resolve a with
    | .fails code => s.ack tag code
    | .port p =>
      match s.cease p with
      | (t, .already) => t.ack tag .ok
      | (t, .madeVacant) => t.ack tag .ok
      | (t, .madeCeasing) => t.ack tag .ceasePending
      | (t, .damaged) => t.ack tag .storeFault

/-! ## WRITE_LINE -/

/-- The record a WRITE_LINE of status ACTIVE, OUTBAR or FULLBAR leaves (R10). -/
def LineRecord.rewritten (r : LineRecord) (st : LineStatus) (c : LineClass) (w : LineWrite) : LineRecord :=
  { status := st, key := some w.key, cls := c, load := clamp 1 40 w.load, cadence := clampCadence w.cadence,
    reverse := w.reverse, meterPulse := w.meterPulse, keep := w.keep, total := if w.meterReset then 0 else r.total,
    damaged := false, withdrawn := false }

/-- The write moves the port's supervision state by the state it finds (R11). -/
def State.placeWritten (s : State) (p : PortNo) : State :=
  let free := if s.parkable p then SupState.parked else .idle
  match (s.port p).sup with
  | .test => s
  | .lockout => s.mark p (s.parkable p)
  | .quarantine =>
    match (s.port p).hook with
    | .off => (s.mark p (s.parkable p)).place p .lockout
    | .on => (s.mark p false).place p free
  | _ => (s.mark p false).place p free

/-- A clamp replaced a value of the written record (R10). -/
def writeClamps (w : LineWrite) : Bool := decide (clamp 1 40 w.load ≠ w.load) || decide (3 < w.cadence)

/-- The write of a record in service (R10, R11). -/
def State.writeService (s : State) (p : PortNo) (st : LineStatus) (c : LineClass) (w : LineWrite) : State :=
  ((s.writeLine p ((s.line p).rewritten st c w)).setIndex p (some w.key)).placeWritten p

/-- The write of status VACANT acts as a cease, meter-reset honoured (R12). -/
def State.writeVacant (s : State) (p : PortNo) (w : LineWrite) : State :=
  let t := if (s.line p).status = .vacant ∧ (s.line p).withdrawn = false then s else s.ceaseNow p
  if w.meterReset then t.writeLine p { t.line p with total := 0 } else t

/-- Checks 6 to 8 of a WRITE_LINE and the write (R9 to R12). A port in WAIT_SLOT is refused by check 6 for every status,
VACANT too, although the table of R105 lists such a write (log entry 32). -/
def State.writeChecked (s : State) (tag : Nat) (a : Address) (p : PortNo) (st : LineStatus) (c : LineClass)
    (w : LineWrite) : State :=
  if (s.call p).isSome ∨ (s.port p).sup = .waitSlot then s.ack tag .lineBusy
  else if st = .vacant then ((s.writeVacant p w).ack tag .ok).moveCursor a s.advance.write
  else
    match s.portOfKey w.key with
    | some q =>
      if q = p then
        ((s.writeService p st c w).ack tag (if writeClamps w then .clamped else .ok)).moveCursor a s.advance.write
      else s.ack tag .duplicateKey
    | none =>
      ((s.writeService p st c w).ack tag (if writeClamps w then .clamped else .ok)).moveCursor a s.advance.write

/-- WRITE_LINE: the checks of R9 in order, then R10 and R11, or R12. -/
def execWriteLine (tag : Nat) (a : Address) (w : LineWrite) (s : State) : Result :=
  s.takeMessage fun s => s.provision tag fun s =>
    match s.resolveForWrite a with
    | .fails code => s.ack tag code
    | .port p =>
      match writtenStatus w.status, classOfOctet w.cls with
      | some st, some c =>
        if (s.line p).damaged && !(s.line p).withdrawn then (s.lineActions p).ack tag .storeFault
        else s.writeChecked tag a p st c w
      | _, _ => s.ack tag .badValue

/-! ## CLEAR_RANGE -/

/-- CLEAR_RANGE makes the engine BUSY and is answered at the end of its range walk (R18). -/
def execClearRange (tag : Nat) (first last : Nat) (s : State) : Result :=
  s.takeMessage fun s => s.provision tag fun s =>
    match portOfNumber first, portOfNumber last with
    | some f, some l =>
      if l < f then s.ack tag .badValue
      else
        { s with
          engine := .walk
            { tag := tag, pos := f, last := l, madeVacant := 0, madeCeasing := 0, linkLost := false,
              left := rangeStepMs } }
    | _, _ => s.ack tag .badValue

/-- The range walk ends: the engine becomes IDLE and the answer is sent, unless the link was lost on the way (R20). -/
def State.endWalk (s : State) (w : RangeWalk) (answer : Message) : State :=
  let t := { s with engine := .idle }
  if w.linkLost then t.release else t.reply answer

/-- A step of the range walk (R19, R20). -/
def execRangeStep (s : State) : Result :=
  .next <|
    match s.engine with
    | .walk w =>
      match s.hold.cease w.pos with
      | (t, .damaged) => t.endWalk w (.ack w.tag .storeFault)
      | (t, outcome) =>
        let v := { w with
          madeVacant := w.madeVacant + (if outcome = .madeVacant then 1 else 0)
          madeCeasing := w.madeCeasing + (if outcome = .madeCeasing then 1 else 0) }
        if w.last ≤ w.pos then t.endWalk v (.rangeDone v.tag v.madeVacant v.madeCeasing)
        else { t with engine := .walk { v with pos := v.pos + 1, left := rangeStepMs } }.release
    | _ => s

/-! ## Cursor and key prefix -/

/-- SET_CURSOR, clamped to 47 (R198). -/
def execSetCursor (tag : Nat) (port : Nat) (s : State) : Result :=
  s.takeMessage fun s => s.provision tag fun s =>
    { s with cursor := ⟨min port 47, by omega⟩ }.ack tag (if 47 < port then .clamped else .ok)

/-- SET_ADVANCE (R199). -/
def execSetAdvance (tag : Nat) (write read : Bool) (direction : Nat) (s : State) : Result :=
  s.takeMessage fun s => s.provision tag fun s =>
    match directionOfOctet direction with
    | some d => { s with advance := { write := write, read := read, direction := d } }.ack tag .ok
    | none => s.ack tag .badValue

/-- SET_PREFIX (R5). -/
def execSetPrefix (tag : Nat) (value : Nat) (s : State) : Result :=
  s.takeMessage fun s => s.provision tag fun s => { s with keyPrefix := value }.ack tag .ok

end Sys2Proof.Machine
end

