-- ==== Sys2Proof/Machine/SlotCommands.lean ====
section
/-!
DEFINITION. Machine/SlotCommands.lean: BLOCK_SLOT, UNBLOCK_SLOT and QUERY_SLOTS (3.5, 3.7).
-/
namespace Sys2Proof.Machine

/-- BLOCK_SLOT (R56). A SUSPECT slot is rewritten without a read; in every other state the record is read first. -/
def execBlockSlot (tag : Nat) (number : Nat) (s : State) : Result :=
  s.takeMessage fun s =>
    match slotOfNumber number with
    | none => s.ack tag .badValue
    | some n =>
      match (s.slot n).state with
      | .suspect => (s.blockSlot n).ack tag .ok
      | st =>
        if (s.slot n).damaged then (s.slotFailure n).ack tag .storeFault
        else
          match st with
          | .free => ((s.leavePool n).blockSlot n).ack tag .ok
          | .bound => (s.setSlot n { s.slot n with blockPending := true }).ack tag .blockPending
          | _ => s.ack tag .ok

/-- UNBLOCK_SLOT (R57). A BLOCKED or SUSPECT slot is rewritten without a read, joins the pool tail, and OWQ service runs
after the reply (R58, R101). -/
def execUnblockSlot (tag : Nat) (number : Nat) (s : State) : Result :=
  s.takeMessage fun s =>
    match slotOfNumber number with
    | none => s.ack tag .badValue
    | some n =>
      match (s.slot n).state with
      | .blocked => ((s.freeSlot n).ack tag .ok).service
      | .suspect => ((s.freeSlot n).ack tag .ok).service
      | .bound =>
        if (s.slot n).damaged then (s.slotFailure n).ack tag .storeFault
        else (s.setSlot n { s.slot n with blockPending := false }).ack tag .ok
      | .free =>
        if (s.slot n).damaged then (s.slotFailure n).ack tag .storeFault
        else s.ack tag .ok

/-- One slot as SLOT_LIST shows it (R62). -/
def State.slotView (s : State) (n : SlotNo) : SlotView :=
  { number := slotNumber n, state := (s.slot n).state, handle := (s.slot n).handle,
    blockPending := (s.slot n).blockPending, connected := s.connected n }

/-- The first SLOT_LIST: F, R, the pool order, and slots 1 to 7 (R62). -/
def State.slotListFirst (s : State) (tag : Nat) : Message :=
  .slotList tag 1
    (some { free := s.pool.length, reserve := s.params.reserve, order := s.pool.map slotNumber })
    ((allSlots.take 7).map s.slotView)

/-- The second SLOT_LIST: slots 8 to 15 (R62). -/
def State.slotListSecond (s : State) (tag : Nat) : Message :=
  .slotList tag 2 none ((allSlots.drop 7).map s.slotView)

/-- QUERY_SLOTS reads one slot record and handles the damage it finds (R61). -/
def State.readSlot (s : State) (n : SlotNo) : State := if (s.slot n).damaged then s.slotFailure n else s

/-- QUERY_SLOTS (R61, R62). -/
def execQuerySlots (tag : Nat) (s : State) : Result :=
  s.takeMessage fun s =>
    if allSlots.any fun n => (s.slot n).damaged then (allSlots.foldl State.readSlot s).ack tag .storeFault
    else (s.reply (s.slotListFirst tag)).send (s.slotListSecond tag)

end Sys2Proof.Machine
end

