-- ==== Sys2Proof/Machine/Octets.lean ====
section
/-!
DEFINITION. Machine/Octets.lean: the octet path of the channel: BAD_MESSAGE, BAD_FRAME and OCTET_TAKEN (11.1).
-/
namespace Sys2Proof.Machine

/-- BAD_MESSAGE: answered, and nothing else changes (R190). -/
def execBadMessage (tag : Nat) (s : State) : Result := s.takeMessage fun s => s.ack tag .badMessage

/-- A length octet or a completed frame is discarded and counted, and the octet after it is read as a length (R189). -/
def State.discardFrame (s : State) : State :=
  { s with assembly := [], counters := { s.counters with badFrames := bump s.counters.badFrames } }

/-- BAD_FRAME (R189); at a time when octets are not taken, nothing is counted. -/
def execBadFrame (s : State) : Result := .next (if s.canTake then s.discardFrame else s)

/-- The event of a message read from its frame, handed to the rule that owns it (R190). -/
def runMessage (i : Instr) (s : State) : Result :=
  match i with
  | .offer t a c => execOffer t a c s
  | .grant t a => execGrant t a s
  | .deny t a => execDeny t a s
  | .answer t a => execAnswer t a s
  | .clear t a c => execClear t a c s
  | .cleared t a => execCleared t a s
  | .meter t a n => execMeter t a n s
  | .blockSlot t n => execBlockSlot t n s
  | .unblockSlot t n => execUnblockSlot t n s
  | .testConnect t a f => execTestConnect t a f s
  | .testRelease t a => execTestRelease t a s
  | .writeLine t a w => execWriteLine t a w s
  | .readLine t a => execReadLine t a s
  | .ceaseLine t a => execCeaseLine t a s
  | .clearRange t f l => execClearRange t f l s
  | .setCursor t p => execSetCursor t p s
  | .setAdvance t w r d => execSetAdvance t w r d s
  | .setPrefix t v => execSetPrefix t v s
  | .setCadence t n ds => execSetCadence t n ds s
  | .readCadence t n => execReadCadence t n s
  | .setParam t p v => execSetParam t p v s
  | .readParam t => execReadParam t s
  | .queryLine t a => execQueryLine t a s
  | .querySlots t => execQuerySlots t s
  | .readCounters t f => execReadCounters t f s
  | .resetCabinet t => execResetCabinet t s
  | .badMessage t => execBadMessage t s
  | _ => .next s

/-- A frame that holds all its octets: discarded when their sum is not a multiple of 256, else taken (R189, R190). -/
def State.completeFrame (s : State) (frame : List Nat) : Result :=
  if frame.sum % 256 = 0 then runMessage (decodeFrame frame) { s with assembly := [] } else .next s.discardFrame

/-- OCTET_TAKEN (R189): a length octet starts a frame or is discarded; another octet joins the frame, and the last one
completes it (log entry 8). -/
def execOctetTaken (octet : Nat) (s : State) : Result :=
  if s.canTake then
    match s.assembly with
    | [] => if 4 ≤ octet ∧ octet ≤ 64 then .next { s with assembly := [octet] } else .next s.discardFrame
    | length :: more =>
      let frame := length :: more ++ [octet]
      if frame.length < length then .next { s with assembly := frame } else s.completeFrame frame
  else .next s

end Sys2Proof.Machine
end

