-- ==== Sys2Proof/Machine/Dispatch.lean ====
section
/-!
DEFINITION. Machine/Dispatch.lean: one arm per command, each one call of its meaning.
-/
namespace Sys2Proof.Machine

def exec (i : Instr) (s : State) : Host.Outcome State Fault Refusal :=
  match i with
  | .offer t a c => Sys2Proof.Machine.execOffer t a c s
  | .grant t a => Sys2Proof.Machine.execGrant t a s
  | .deny t a => Sys2Proof.Machine.execDeny t a s
  | .answer t a => Sys2Proof.Machine.execAnswer t a s
  | .clear t a c => Sys2Proof.Machine.execClear t a c s
  | .cleared t a => Sys2Proof.Machine.execCleared t a s
  | .meter t a n => Sys2Proof.Machine.execMeter t a n s
  | .blockSlot t n => Sys2Proof.Machine.execBlockSlot t n s
  | .unblockSlot t n => Sys2Proof.Machine.execUnblockSlot t n s
  | .testConnect t a f => Sys2Proof.Machine.execTestConnect t a f s
  | .testRelease t a => Sys2Proof.Machine.execTestRelease t a s
  | .writeLine t a w => Sys2Proof.Machine.execWriteLine t a w s
  | .readLine t a => Sys2Proof.Machine.execReadLine t a s
  | .ceaseLine t a => Sys2Proof.Machine.execCeaseLine t a s
  | .clearRange t f l => Sys2Proof.Machine.execClearRange t f l s
  | .setCursor t p => Sys2Proof.Machine.execSetCursor t p s
  | .setAdvance t w r d => Sys2Proof.Machine.execSetAdvance t w r d s
  | .setPrefix t v => Sys2Proof.Machine.execSetPrefix t v s
  | .setCadence t n ds => Sys2Proof.Machine.execSetCadence t n ds s
  | .readCadence t n => Sys2Proof.Machine.execReadCadence t n s
  | .setParam t p v => Sys2Proof.Machine.execSetParam t p v s
  | .readParam t => Sys2Proof.Machine.execReadParam t s
  | .queryLine t a => Sys2Proof.Machine.execQueryLine t a s
  | .querySlots t => Sys2Proof.Machine.execQuerySlots t s
  | .readCounters t f => Sys2Proof.Machine.execReadCounters t f s
  | .resetCabinet t => Sys2Proof.Machine.execResetCabinet t s
  | .badMessage t => Sys2Proof.Machine.execBadMessage t s
  | .badFrame => Sys2Proof.Machine.execBadFrame s
  | .loopClosed p ms => Sys2Proof.Machine.execLoopClosed p ms s
  | .loopOpen p => Sys2Proof.Machine.execLoopOpen p s
  | .offHookDeclared p => Sys2Proof.Machine.execOffHookDeclared p s
  | .onHookDeclared p => Sys2Proof.Machine.execOnHookDeclared p s
  | .digitEnd p => Sys2Proof.Machine.execDigitEnd p s
  | .segmentEnd h => Sys2Proof.Machine.execSegmentEnd h s
  | .pulseEnd p => Sys2Proof.Machine.execPulseEnd p s
  | .gapEnd p => Sys2Proof.Machine.execGapEnd p s
  | .tAcceptExpiry h => Sys2Proof.Machine.execTAcceptExpiry h s
  | .tRingwaitExpiry h => Sys2Proof.Machine.execTRingwaitExpiry h s
  | .tRingmaxExpiry h => Sys2Proof.Machine.execTRingmaxExpiry h s
  | .tReleaseExpiry h => Sys2Proof.Machine.execTReleaseExpiry h s
  | .tWaitExpiry p => Sys2Proof.Machine.execTWaitExpiry p s
  | .tTestExpiry => Sys2Proof.Machine.execTTestExpiry s
  | .rangeStep => Sys2Proof.Machine.execRangeStep s
  | .sweepStep => Sys2Proof.Machine.execSweepStep s
  | .senseReading c v => Sys2Proof.Machine.execSenseReading c v s
  | .storageUpset l => Sys2Proof.Machine.execStorageUpset l s
  | .framerLost => Sys2Proof.Machine.execFramerLost s
  | .framerAligned => Sys2Proof.Machine.execFramerAligned s
  | .lossHoldExpiry => Sys2Proof.Machine.execLossHoldExpiry s
  | .alignmentHoldExpiry => Sys2Proof.Machine.execAlignmentHoldExpiry s
  | .resetLineAsserted => Sys2Proof.Machine.execResetLineAsserted s
  | .resetLineReleased => Sys2Proof.Machine.execResetLineReleased s
  | .powerOn f r => Sys2Proof.Machine.execPowerOn f r s
  | .storeClearEnd fs => Sys2Proof.Machine.execStoreClearEnd fs s
  | .octetTaken o => Sys2Proof.Machine.execOctetTaken o s

end Sys2Proof.Machine
end

