-- ==== Sys2Proof/Machine/Step.lean ====
section
/-!
DEFINITION. Machine/Step.lean: one step of the part: the command at the front of the queue, or, with none waiting, the
clock.
-/
namespace Sys2Proof.Machine

/-- One step. With a command waiting, it is taken from the front and run on the state with the queue's rest. With none,
the clock goes on: an event that is due is taken, or one millisecond passes (log entry 1). -/
def step (s : State) : Host.Outcome State Fault Refusal :=
  match s.pending with
  | c :: rest => exec c { s with pending := rest }
  | [] =>
    match s.dueNext with
    | some c => exec c s.draw
    | none => .next s.tick

/-- The state with the command a table word spells at the front of its queue; no word spells one (log entry 20). -/
def State.withFetchWord (s : State) (nbits w : Nat) : State :=
  match decodeTableWord nbits w with
  | some c => { s with pending := c :: s.pending }
  | none => s

end Sys2Proof.Machine
end

