-- ==== Sys2Proof/Machine/Frames.lean ====
section
/-!
DEFINITION. Machine/Frames.lean: the frame of each message the part sends (11.1, 11.7): the type octets of R188, the tag,
and the body fields in the order of the message tables. A member of a set is its number in the order of R188, a field
that may be absent has its presence octet before it (log entry 19).
-/
namespace Sys2Proof.Machine

/-- A field that may be absent: a presence octet, and the field when it is present (R188). The part writes 1 for present
(log entry 33). -/
def optional {α : Type} (f : α → List Nat) : Option α → List Nat
  | some a => 1 :: f a
  | none => [0]

/-- A temperature in one signed octet (R188). -/
def signedOctet (t : Int) : Nat := (t % 256).toNat

def LineStatus.octet : LineStatus → Nat
  | .vacant => 0
  | .active => 1
  | .outbar => 2
  | .fullbar => 3
  | .ceasing => 4

def LineClass.octet : LineClass → Nat
  | .ordinary => 0
  | .priority => 1

def SupState.octet : SupState → Nat
  | .vacant => 0
  | .idle => 1
  | .waitSlot => 2
  | .bound => 3
  | .lockout => 4
  | .parked => 5
  | .test => 6
  | .quarantine => 7

def Hook.octet : Hook → Nat
  | .on => 0
  | .off => 1

def Drive.octet : Drive → Nat
  | .feedOff => 0
  | .feedNormal => 1
  | .feedReversed => 2
  | .ringOn => 3
  | .testHeld => 4

def Phase.octet : Phase → Nat
  | .seizing => 0
  | .dialling => 1
  | .ringWait => 2
  | .ringing => 3
  | .connected => 4
  | .clearing => 5

def SlotState.octet : SlotState → Nat
  | .free => 0
  | .bound => 1
  | .blocked => 2
  | .suspect => 3

/-- 0 to 9 as their own values, BAD as 10 (R188). -/
def Digit.octet : Digit → Nat
  | .num d => d.val
  | .bad => 10

def Code.octet : Code → Nat
  | .ok => 0
  | .clamped => 1
  | .busy => 2
  | .stale => 3
  | .wrongPhase => 4
  | .unknownLine => 5
  | .vacant => 6
  | .barred => 7
  | .lineBusy => 8
  | .parked => 9
  | .underTest => 10
  | .quarantined => 11
  | .noSlot => 12
  | .busBusy => 13
  | .duplicateKey => 14
  | .badValue => 15
  | .badMessage => 16
  | .ceasePending => 17
  | .blockPending => 18
  | .storeFault => 19

def Cause.octet : Cause → Nat
  | .lineClear => 0
  | .noGrant => 1
  | .noAnswer => 2
  | .noRingPower => 3
  | .test => 4
  | .storeFault => 5

def PowerState.octet : PowerState → Nat
  | .normal => 0
  | .conserve => 1
  | .survival => 2

def Band.octet : Band → Nat
  | .cool => 0
  | .hot => 1
  | .trip => 2

def channelOctet : Channel → Nat
  | .battery => 0
  | .temperature => 1

def Condition.octet : Condition → Nat
  | .fault => 0
  | .ok => 1

def IntegrityKind.octet : IntegrityKind → Nat
  | .line => 0
  | .slot => 1
  | .binding => 2

def RestartCause.octet : RestartCause → Nat
  | .power => 0
  | .reset => 1
  | .command => 2
  | .link => 3

/-- The record of LINE_DATA (R8). -/
def LineView.octets (r : LineView) : List Nat :=
  [r.status.octet] ++ optional toOctets3 r.key ++
    [r.cls.octet, r.load, r.cadence.val, flagOctet r.reverse, flagOctet r.meterPulse, flagOctet r.keep] ++
    toOctets3 r.total

/-- One slot of SLOT_LIST (R62). -/
def SlotView.octets (v : SlotView) : List Nat :=
  [v.number, v.state.octet, v.handle, flagOctet v.blockPending] ++ optional (fun p : PortNo => [p.val]) v.connected

/-- The head of the first SLOT_LIST; F gives the number of slots in the pool order (R62, R188). -/
def PoolView.octets (v : PoolView) : List Nat := [v.free, v.reserve] ++ v.order

/-- The phase octet of LINE_STATE. When there is no binding the manual gives the handle, 0, and no phase; what the octet
holds then is a free value (R46, log entry 28). -/
def phaseOctet : Option Phase → Nat
  | some ph => ph.octet
  | none => Config.noPhaseOctet.val

/-- The fields of LINE_STATE; the status alone may be absent (R46, 11.7). -/
def LineStateView.octets (v : LineStateView) : List Nat :=
  [v.port.val, v.sup.octet, v.hook.octet, flagOctet v.parkPending, v.latch.octet, v.applied.octet, flagOctet v.tone,
    v.call.1, phaseOctet v.call.2] ++ optional (fun st : LineStatus => [st.octet]) v.status

/-- The fields of CADENCE_DATA (R115): the durations counted by the segment count, the two lists each by an octet. -/
def CadenceView.octets (v : CadenceView) : List Nat :=
  [v.cadence.val, v.durations.length] ++ v.durations ++ [v.g, v.available] ++ toOctets2 v.committed ++
    (v.queue.length :: v.queue) ++ (v.ringing.length :: v.ringing.flatMap fun r => [r.1, r.2])

/-- The values of the parameters, each in two octets (R203). -/
def Params.octets (q : Params) : List Nat := allParams.flatMap fun p => toOctets2 (q.get p)

/-- The counters in the order of their table (R205). -/
def Counters.values (c : Counters) : List Nat :=
  [c.attempted, c.queued, c.waitTimeouts, c.abandons, c.noSlot, c.ringSheds, c.ringwaitTimeouts, c.releaseTimeouts,
    c.earlyOverflows, c.badFrames, c.integrityFaults]

/-- The type, the tag and the body of a message of the part (R188, R191, 11.7). The slot entries of a SLOT_LIST stand
without an octet of their number, which the part octet fixes (log entry 35). -/
def Message.parts : Message → Nat × Nat × List Nat
  | .clear h c n => (5, 0, [h, c.octet] ++ toOctets2 n)
  | .cleared t h n => (6, t, [h] ++ toOctets2 n)
  | .seize h n p k => (27, 0, [h, n, p.val] ++ toOctets3 (k.getD 0))
  | .digit h d => (28, 0, [h, d.octet])
  | .flash h => (29, 0, [h])
  | .answered h => (30, 0, [h])
  | .bound t h n => (31, t, [h, n])
  | .refused t r => (32, t, [r.octet])
  | .ack t c => (33, t, [c.octet])
  | .rangeDone t v c => (33, t, [Code.ok.octet, v, c])
  | .lineData t p st hk r => (34, t, [p.val, st.octet, hk.octet] ++ optional LineView.octets r)
  | .lineState t v => (35, t, v.octets)
  | .slotList t part pool slots =>
    (36, t, [part] ++ (match pool with | some v => v.octets | none => []) ++ slots.flatMap SlotView.octets)
  | .cadenceData t v => (37, t, v.octets)
  | .paramData t q => (38, t, q.octets)
  | .counterData t c => (39, t, c.values.flatMap toOctets2)
  | .power st b hb ht =>
    (40, 0, [st.octet, b.octet] ++ optional toOctets2 hb ++ optional (fun x : Int => [signedOctet x]) ht)
  | .sense c k => (41, 0, [channelOctet c, k.octet])
  | .integrity k n h => (42, 0, [k.octet, n, h])
  | .testEnded p st => (43, 0, [p.val, st.octet])
  | .ceased p k n => (44, 0, [p.val] ++ optional toOctets3 k ++ toOctets3 n)
  | .restart c n => (45, 0, [c.octet, n])

/-- The frame in which a message leaves (11.1). -/
def Message.frame (m : Message) : List Nat := frameOf m.parts.1 m.parts.2.1 m.parts.2.2

end Sys2Proof.Machine
end

