-- ==== Sys2Proof/Safety.lean ====
section
/-!
DEFINITION. Safety.lean: the terms the statements are written in. First what a message and an event leave behind, then
the promises that the manual makes of every state between two events. `Quiet` is the model's own (log entry 14).
-/
namespace Sys2Proof.Safety

open Sys2Proof.Machine

/-! ## Conditions on a state -/

/-- SCI takes messages (R189). -/
abbrev Listening (s : State) : Prop := s.link = .up ∧ s.framer = .aligned

/-- No message waits for a reply: the way out is at rest between two events (log entry 14). -/
abbrev Quiet (s : State) : Prop := s.out.held = [] ∧ s.out.holding = false

/-- The command is a message from the exchange (11.7), or a frame that is none of them (R190). -/
def isMessage : Instr → Bool
  | .badMessage _ => true
  | i => (encodeBody i).isSome

/-- The address a message carries, if it carries one. -/
def addressOf : Instr → Option Address
  | .offer _ a _ => some a
  | .grant _ a => some a
  | .deny _ a => some a
  | .answer _ a => some a
  | .clear _ a _ => some a
  | .cleared _ a => some a
  | .meter _ a _ => some a
  | .testConnect _ a _ => some a
  | .testRelease _ a => some a
  | .writeLine _ a _ => some a
  | .readLine _ a => some a
  | .ceaseLine _ a => some a
  | .queryLine _ a => some a
  | _ => none

/-- The handle names this entry and this binding, and the entry reads good (R70, checks 1 and 2). -/
abbrev Named (s : State) (h : Nat) (e : EntryNo) (b : Binding) : Prop :=
  s.byHandle h = some (e, b) ∧ (s.entry e).damaged = false

/-- The port's live binding stands in this entry, and the entry reads good. -/
abbrev Holds (s : State) (p : PortNo) (e : EntryNo) (b : Binding) : Prop :=
  s.call p = some (e, b) ∧ (s.entry e).damaged = false

/-- The port's line record is in use and reads good. -/
abbrev InUse (s : State) (p : PortNo) : Prop := (s.line p).withdrawn = false ∧ (s.line p).damaged = false

/-- A read of the port's line record finds no damage: a withdrawn record is not read (R180). -/
abbrev Reads (s : State) (p : PortNo) : Prop := (s.line p).withdrawn = true ∨ (s.line p).damaged = false

/-- Every binding entry reads good, so a budget pass meets no failure (R182). -/
abbrev EntriesRead (s : State) : Prop := ∀ e, (s.entry e).damaged = false

/-! ## What an event leaves -/

/-- A message has been taken and these messages have left. -/
def answering (s : State) (ms : List Message) : State :=
  { s with assembly := [], out := { s.out with sent := s.out.sent ++ ms } }

/-- These messages have left, if the link is UP (R192). -/
def telling (s : State) (ms : List Message) : State :=
  if s.link = .up then { s with out := { s.out with sent := s.out.sent ++ ms } } else s

/-- An entry has been written, its check with it (R66). -/
def holding (s : State) (e : EntryNo) (b : Option Binding) : State :=
  { s with entries := s.entries.set e { binding := b, damaged := false } }

/-- A port has been written. -/
def porting (s : State) (p : PortNo) (q : Port) : State := { s with ports := s.ports.set p q }

/-- A line record has been written, its check with it, and is in use (R1, R180). -/
def lining (s : State) (p : PortNo) (r : LineRecord) : State :=
  { s with lines := s.lines.set p { r with damaged := false, withdrawn := false } }

/-- A slot record has been written, its check with it (R49). -/
def slotting (s : State) (n : SlotNo) (st : SlotState) (h : Nat) (marker : Bool) : State :=
  { s with slots := s.slots.set n { state := st, handle := h, blockPending := marker, damaged := false } }

/-- A BOUND, waiting or locked-out port is released by its hook ON: IDLE, or PARKED with the marker cleared, the hook
held ON and nothing timed (R31, R44). -/
def idled (q : Port) : Port :=
  if q.parkPending = true then
    { q with sup := .parked, parkPending := false, hook := .on, classifier := .atRest, pulses := 0, makeTimer := none }
  else { q with sup := .idle }

/-- A port whose binding has ceased to exist: a BOUND port is placed by its hook, another keeps its state (R45). -/
def settled (q : Port) : Port :=
  if q.sup = .bound then if q.hook = .off then { q with sup := .lockout } else idled q else q

/-- A port whose line is ceased: VACANT, the hook held ON and nothing timed; a port in TEST stays (R13, R31). -/
def vacated (q : Port) : Port :=
  if q.sup = .test then { q with parkPending := false }
  else { q with sup := .vacant, parkPending := false, hook := .on, classifier := .atRest, pulses := 0,
                makeTimer := none }

/-- A port whose record is withdrawn: QUARANTINE, fed, so a closed loop is timed when the port gains its feed; a port in
TEST stays (R31, R179). -/
def quarantined (q : Port) : Port :=
  if q.sup = .test then { q with parkPending := false }
  else if q.sup = .vacant ∨ q.sup = .parked then
    { q with sup := .quarantine, parkPending := false,
             classifier := if q.lineClosed = true then .closure 0 else .atRest }
  else { q with sup := .quarantine, parkPending := false }

/-- A port that leaves the test bus, its record good or withdrawn: placed by its record, the power state and its hook
(R31, R172). -/
def released (s : State) (p : PortNo) : Port :=
  let q := { s.port p with parkPending := false }
  if (s.line p).withdrawn = true then { q with sup := .quarantine }
  else if (s.line p).status = .vacant then
    { q with sup := .vacant, hook := .on, classifier := .atRest, pulses := 0, makeTimer := none }
  else if s.sense.power = .survival ∧ (s.line p).cls = .ordinary ∧ (s.line p).keep = false then
    { q with sup := .parked, hook := .on, classifier := .atRest, pulses := 0, makeTimer := none }
  else if (s.port p).hook = .off then { q with sup := .lockout }
  else { q with sup := .idle }

/-- A binding as it stands in CLEARING: no early list, no reversal, T_release alone running (R84). -/
def inClearing (s : State) (b : Binding) : Binding :=
  { b with phase := .clearing, early := none, reversal := false, tAccept := none, tRingwait := none, tRingmax := none,
           tRelease := some (s.params.tRelease * 1000) }

/-- The handle stands neither in the ring queue nor in the ringing list. -/
abbrev NotRinging (s : State) (h : Nat) : Prop :=
  (∀ r ∈ s.ringList, r.handle ≠ h) ∧ ∀ q ∈ s.ringQueue, q.handle ≠ h

/-- The handle taken out of the ring queue and the ringing list, L with it (R117, R118, R119). -/
def unringing (s : State) (h : Nat) : State :=
  { s with
    ringQueue := s.ringQueue.filter fun q => !decide (q.handle = h)
    ringList := s.ringList.filter fun r => !decide (r.handle = h)
    committed := s.committed - ((s.ringList.filter fun r => decide (r.handle = h)).map (·.load)).sum }

/-- With the handle taken out, the budget pass has nothing to do: L stands within A, and no other binding waits to ring
(R124). -/
abbrev LastToRing (s : State) (h : Nat) : Prop :=
  (unringing s h).committed ≤ s.available ∧ ∀ q ∈ s.ringQueue, q.handle = h

/-- A normal retirement up to its OWQ service, of a binding that is out of the ringing lists and whose slot record reads
good, when no deferred cease completes: fold, injector, slot, entry, port (R52, R89, R143). -/
def retired (s : State) (e : EntryNo) (b : Binding) : State :=
  { s with
    lines := if (s.line b.port).withdrawn = true then s.lines else s.lines.set b.port
      { s.line b.port with
        total := min ((s.line b.port).total + b.meterCount) 16777215, damaged := false, withdrawn := false }
    slots := s.slots.set b.slot
      { state := if (s.slot b.slot).blockPending = true then .blocked else .free, handle := 0, blockPending := false,
        damaged := false }
    pool := if (s.slot b.slot).blockPending = true then s.pool else s.pool ++ [b.slot]
    entries := s.entries.set e { binding := none, damaged := false }
    ports := s.ports.set b.port (settled { s.port b.port with injector := .idle }) }

/-- OWQ service runs when the slot went back to the pool, or when the port was waiting behind the binding (R89 step 8).
`after` is what the steps before it leave. -/
def served (s : State) (b : Binding) (after : State) : State :=
  if (s.slot b.slot).blockPending = true ∧ s.waiting b.port = false then after else after.service

/-- What a normal retirement of a good record asks: the line record reads good or is withdrawn, the slot record reads
good. -/
abbrev Retirable (s : State) (b : Binding) : Prop := Reads s b.port ∧ (s.slot b.slot).damaged = false

/-- A deferred cease waits for the binding of this port (R14, R15). -/
abbrev Ceasing (s : State) (p : PortNo) : Prop := (s.line p).status = .ceasing ∧ (s.line p).withdrawn = false

/-- The parameters in the order of their octets, each with its range; an on-off parameter is 0 or 1 (11.4, R188, R201). -/
def paramTable : Vector (Param × Nat × Nat) 17 :=
  #v[(.g, 8, 255), (.bFull, 300, 700), (.bCut, 200, 650), (.bConserve, 300, 650), (.bSurvive, 250, 600),
    (.tHot, 0, 90), (.tTrip, 10, 100), (.reserve, 0, 4), (.tAccept, 1, 10), (.tWait, 1, 30), (.tRingwait, 1, 30),
    (.tRingmax, 30, 600), (.tRelease, 1, 10), (.tTest, 1, 60), (.tone, 0, 1), (.battery, 0, 1), (.temperature, 0, 1)]

/-- What a SET_PARAM of this value would leave: the value clamped to the range, the other parameters kept (R201). -/
def stored (s : State) (i : Fin 17) (value : Nat) : Params :=
  s.params.set paramTable[i].1 (max paramTable[i].2.1 (min value paramTable[i].2.2))

/-- The ACK of a SET_PARAM that is taken (R201). -/
def storedAck (tag : Nat) (i : Fin 17) (value : Nat) : Message :=
  .ack tag (if paramTable[i].2.1 ≤ value ∧ value ≤ paramTable[i].2.2 then .ok else .clamped)

/-- The three ordered pairs stand in order (11.4). -/
abbrev InOrder (q : Params) : Prop := q.bCut < q.bFull ∧ q.bSurvive < q.bConserve ∧ q.tHot < q.tTrip

/-- A port as the scan of a survival parks or marks it, its record reading good or withdrawn (R156). A record in use is
neither VACANT nor withdrawn (log entry 34). -/
def scanned (s : State) (p : PortNo) : Port :=
  let q := s.port p
  if (s.line p).withdrawn = true ∨ (s.line p).status = .vacant ∨ (s.line p).cls = .priority ∨
      (s.line p).keep = true then q
  else
    match q.sup with
    | .idle => { q with sup := .parked, hook := .on, classifier := .atRest, pulses := 0, makeTimer := none }
    | .waitSlot => { q with parkPending := true }
    | .bound => { q with parkPending := true }
    | .lockout => { q with parkPending := true }
    | .test => { q with parkPending := true }
    | _ => q

/-- A port as leaving a survival unparks or unmarks it, a closed loop being timed from that instant (R31, R158). -/
def unscanned (q : Port) : Port :=
  if q.sup = .parked then
    { q with sup := .idle, parkPending := false, classifier := if q.lineClosed = true then .closure 0 else .atRest }
  else { q with parkPending := false }

/-- The power state after a valid battery reading `b` (R154). -/
def powerAfter (q : Params) (before : PowerState) (b : Nat) : PowerState :=
  if b < q.bSurvive then .survival
  else
    match before with
    | .normal => if b < q.bConserve then .conserve else .normal
    | .conserve => if b < q.bConserve + 10 then .conserve else .normal
    | .survival => if q.bConserve + 10 ≤ b then .normal else if q.bSurvive + 10 ≤ b then .conserve else .survival

/-- A port on which a digit is being counted, or a hook is declared: the hook and the classifier as given, the count and
the make timer cleared (R30, R33, R34). -/
def declared (q : Port) (hook : Hook) (c : Classifier) : Port :=
  { q with hook := hook, classifier := c, pulses := 0, makeTimer := none }

/-- A binding lost to a record failure, its entry emptied and its slot out of service: no fold, the port settled (R59,
R95, R181). -/
def bindingLost (s : State) (e : EntryNo) (b : Binding) : State :=
  { s with
    slots := s.slots.set b.slot { state := .suspect, handle := 0, blockPending := false, damaged := false }
    pool := s.pool.filter fun m => !decide (m = b.slot)
    entries := s.entries.set e { binding := none, damaged := false }
    ports := s.ports.set b.port (settled { s.port b.port with injector := .idle }) }

/-- Record check failures have been found and counted (R177). -/
def faulted (s : State) (found : Nat) : State :=
  { s with counters := { s.counters with integrityFaults := min (s.counters.integrityFaults + found) 65535 } }

/-- A line record found damaged on a port whose call, if it has one, the failure does not touch: counted, withdrawn, its
key out of the index, a waiting port out of the queue, the port in QUARANTINE or in TEST (R179). -/
def quarantining (s : State) (p : PortNo) : State :=
  { faulted s 1 with
    lines := s.lines.set p { s.line p with withdrawn := true }
    keyIndex := s.keyIndex.set p none
    owq := s.owq.filter fun w => !decide (w.port = p)
    ports := s.ports.set p (quarantined (s.port p)) }

/-- A slot record found damaged outside a call: counted, SUSPECT and out of the pool (R60, R183). -/
def slotLost (s : State) (n : SlotNo) : State :=
  { faulted (slotting s n .suspect 0 false) 1 with pool := s.pool.filter fun m => !decide (m = n) }

/-- A line record found damaged under a call outside CLEARING: the binding enters CLEARING, and the port goes to QUARANTINE
or stays in TEST (R84, R94, R179). -/
def callLineLost (s : State) (e : EntryNo) (b : Binding) : State :=
  { quarantining s b.port with
    entries := s.entries.set e { binding := some (inClearing s b), damaged := false }
    ports := s.ports.set b.port (quarantined { s.port b.port with injector := .idle }) }

/-- A call is out of the ringing lists: if it stood in one, the budget pass has run after its removal (R129). -/
def leftRinging (s : State) (h : Nat) : State := if NotRinging s h then s else (unringing s h).budgetPass

/-- A normal retirement up to its OWQ service, of a binding that is out of the ringing lists and whose slot record reads
good, when the fold finds the line record damaged: no fold, the record withdrawn (R144, R179). -/
def retiredLost (s : State) (e : EntryNo) (b : Binding) : State :=
  { quarantining s b.port with
    slots := (retired s e b).slots
    pool := (retired s e b).pool
    entries := (retired s e b).entries
    ports := s.ports.set b.port (quarantined { s.port b.port with injector := .idle }) }

/-- The scan of a survival reads the record of this port and finds it damaged (R156, R157). -/
abbrev ScanFinds (s : State) (p : PortNo) : Prop :=
  (s.port p).sup ≠ .vacant ∧ (s.line p).withdrawn = false ∧ (s.line p).damaged = true

/-- An accepted OFFER up to its budget pass: the binding of the port on this slot, in this entry, waits to ring (R51, R67,
R78). -/
def offerBound (s : State) (p : PortNo) (c : Option Nat) (n : SlotNo) (e : EntryNo) : State :=
  let cadence : CadenceNo := match c with
    | some v => ⟨min v 3, by omega⟩
    | none => (s.line p).cadence
  { s with
    pool := s.pool.filter fun m => !decide (m = n)
    slots := s.slots.set n { state := .bound, handle := s.chooseHandle, blockPending := false, damaged := false }
    entries := s.entries.set e
      { binding := some
          { handle := s.chooseHandle, port := p, slot := n, direction := .term, phase := .ringWait,
            cadence := some cadence, early := none, meterCount := 0, pendingPulses := 0, reversal := false,
            tAccept := none, tRingwait := some (s.params.tRingwait * 1000),
            tRingmax := some (s.params.tRingmax * 1000), tRelease := none }
        damaged := false }
    nextHandle := if s.chooseHandle < 255 then s.chooseHandle + 1 else 1
    ports := s.ports.set p { s.port p with sup := .bound }
    ringQueue := s.ringQueue ++
      [{ handle := s.chooseHandle, port := p, cadence := cadence, load := (s.line p).load }] }

/-- A line is ceased with this total: the record VACANT, its key out of the index, a waiting port out of the queue, the
port VACANT or in TEST (R13, R15). -/
def ceased (s : State) (p : PortNo) (total : Nat) : State :=
  { s with
    lines := s.lines.set p { LineRecord.initial with total := total }
    keyIndex := s.keyIndex.set p none
    owq := s.owq.filter fun w => !decide (w.port = p)
    ports := s.ports.set p (vacated (s.port p)) }

/-- A port whose line a warm reset leaves VACANT (R48). -/
def retiredVacant (q : Port) : Port :=
  { q with sup := .vacant, parkPending := false, hook := .on, classifier := .atRest, pulses := 0, makeTimer := none,
           injector := .idle }

/-- A class is admitted against F, the length of the pool (R53). -/
abbrev Admits (s : State) (c : LineClass) : Prop :=
  (c = .priority ∧ 1 ≤ s.pool.length) ∨ (c = .ordinary ∧ s.params.reserve < s.pool.length)

/-- A service scan passes over the entry of this port: it holds a CLEARING binding, or its class is not admitted (R99,
conditions 2 and 3). -/
abbrev PassedOver (s : State) (p : PortNo) : Prop :=
  s.hasClearing p = true ∨ (InUse s p ∧ ¬ Admits s (s.line p).cls)

/-- The port's one binding stands in this entry. -/
abbrev OnlyCall (s : State) (p : PortNo) (e : EntryNo) (b : Binding) : Prop :=
  (s.entry e).binding = some b ∧ b.port = p ∧ ∀ f, ∀ c ∈ (s.entry f).binding, c.port = p → f = e

/-- A slot after every binding has been given up: a BOUND one is FREE, or BLOCKED by its marker, or SUSPECT when its
record is damaged; another stays as it is (R64, R65). -/
def givenUp (r : Slot) : Slot :=
  if r.state = .bound then
    { state := if r.damaged = true then .suspect else if r.blockPending = true then .blocked else .free
      handle := 0, blockPending := false, damaged := false }
  else r

/-- The slots that join the pool, in slot-number order, when every binding is given up (R64, R65). -/
def comingFree (s : State) : List SlotNo :=
  (List.finRange 15).filter fun n =>
    decide ((s.slot n).state = .bound) && !(s.slot n).damaged && !(s.slot n).blockPending

/-- A port as a warm reset places it, its record reading good or withdrawn: the marker and a partial digit are lost, and
the record, the power state and the hook give the state (R48). -/
def replaced (s : State) (p : PortNo) : Port :=
  let q := { s.port p with parkPending := false, pulses := 0, makeTimer := none, injector := .idle }
  if (s.line p).withdrawn = true then q.place .quarantine
  else if (s.line p).status = .vacant then q.place .vacant
  else if s.sense.power = .survival ∧ (s.line p).cls = .ordinary ∧ (s.line p).keep = false then q.place .parked
  else if (s.port p).hook = .off then q.place .lockout
  else q.place .idle

/-- What a warm reset leaves (R208): every call, queue and count is gone, everything provisioned is kept, and each line
and port whose record reads good and is not being ceased is as R48, R64 and R92 put it. -/
abbrev WarmlyReset (s t : State) : Prop :=
  (∀ e, t.entry e = { binding := none, damaged := false }) ∧ t.nextHandle = 1 ∧ t.ringQueue = [] ∧ t.ringList = [] ∧
  t.committed = 0 ∧ t.owq = [] ∧ t.bus = none ∧ t.engine = .idle ∧ t.cursor = 0 ∧
  t.advance = { write := false, read := false, direction := .up } ∧ t.sweepPos = 0 ∧ t.sweepLeft = 50 ∧
  t.counters.values = [0, 0, 0, 0, 0, 0, 0, 0, 0, 0, 0] ∧ t.keyPrefix = s.keyPrefix ∧ t.cadences = s.cadences ∧
  t.params = s.params ∧ t.sense = s.sense ∧ t.available = s.available ∧
  (∀ n, t.slot n = givenUp (s.slot n)) ∧ ((∀ n ∈ s.pool, (s.slot n).state = .free) → t.pool = s.pool ++ comingFree s) ∧
  ∀ p, Reads s p → ¬ Ceasing s p →
    t.port p = replaced s p ∧ t.indexKey p = s.indexKey p ∧ (s.call p = none → t.line p = s.line p) ∧
    ∀ e b, OnlyCall s p e b → t.line p =
      if (s.line p).withdrawn = true then s.line p
      else { s.line p with total := min ((s.line p).total + b.meterCount) 16777215 }

/-! ## Promises of every state between two events -/

/-- The three ordered pairs of parameters stand in order (11.4). -/
abbrev ParamsOrdered (s : State) : Prop := InOrder s.params

/-- Every counter is 0 to 65,535 (11.5). -/
abbrev CountersBounded (s : State) : Prop :=
  s.counters.attempted ≤ countMax ∧ s.counters.queued ≤ countMax ∧ s.counters.waitTimeouts ≤ countMax ∧
  s.counters.abandons ≤ countMax ∧ s.counters.noSlot ≤ countMax ∧ s.counters.ringSheds ≤ countMax ∧
  s.counters.ringwaitTimeouts ≤ countMax ∧ s.counters.releaseTimeouts ≤ countMax ∧
  s.counters.earlyOverflows ≤ countMax ∧ s.counters.badFrames ≤ countMax ∧ s.counters.integrityFaults ≤ countMax

/-- The free pool holds each FREE slot exactly once and holds no other slot (R50). -/
abbrev PoolExact (s : State) : Prop :=
  s.pool.Nodup ∧ ∀ n : SlotNo, n ∈ s.pool ↔ (s.slot n).state = .free

/-- Every live binding holds a BOUND slot that names its handle (R51); the handles of live bindings are distinct and lie
in 1 to 255, and so does the next-handle counter (R67). -/
abbrev BindingsExact (s : State) : Prop :=
  (∀ e, ∀ b ∈ (s.entry e).binding,
    (s.slot b.slot).state = .bound ∧ (s.slot b.slot).handle = b.handle ∧ 1 ≤ b.handle ∧ b.handle ≤ 255) ∧
  (∀ e f, ∀ b ∈ (s.entry e).binding, ∀ c ∈ (s.entry f).binding, b.handle = c.handle → e = f) ∧
  1 ≤ s.nextHandle ∧ s.nextHandle ≤ 255

/-- Every BOUND slot is held by exactly one live binding (R51). -/
abbrev SlotsHeld (s : State) : Prop :=
  ∀ n : SlotNo, (s.slot n).state = .bound →
    ∃ e, (∃ b ∈ (s.entry e).binding, b.slot = n) ∧ ∀ f, ∀ c ∈ (s.entry f).binding, c.slot = n → f = e

/-- L equals the sum of the loads on the ringing list (R119), every load held is at least 1 (R1, R116), and either
L ≤ A, or one binding rings and A is above 0 (R119). -/
abbrev BudgetHeld (s : State) : Prop :=
  s.committed = (s.ringList.map (·.load)).sum ∧
  (∀ r ∈ s.ringList, 1 ≤ r.load) ∧ (∀ q ∈ s.ringQueue, 1 ≤ q.load) ∧ (∀ p, 1 ≤ (s.line p).load) ∧
  (s.committed ≤ s.available ∨ (s.ringList.length = 1 ∧ 0 < s.available))

/-- A is the capacity that the parameters and the held readings give (R121, R122), and the band is the one from which it
was computed (R153). -/
abbrev CapacityFollows (s : State) : Prop := s.available = s.capacity ∧ s.sense.band = s.bandNow

/-- The key index holds an entry for each record that holds a key and no other (R4), and no two records hold the same
key. -/
abbrev IndexExact (s : State) : Prop :=
  (∀ p, s.indexKey p =
    if (s.line p).withdrawn = true ∨ (s.line p).status = .vacant then none else (s.line p).key) ∧
  ∀ p q k, s.indexKey p = some k → s.indexKey q = some k → p = q

/-- A port in QUARANTINE has its record withdrawn (R180). A port in VACANT or PARKED has its hook held ON and nothing
timed (R31, R37). -/
abbrev PortsPlaced (s : State) : Prop :=
  ∀ p, ((s.port p).sup = .quarantine → (s.line p).withdrawn = true) ∧
    ((s.port p).sup = .vacant ∨ (s.port p).sup = .parked → (s.port p).hook = .on ∧ (s.port p).classifier = .atRest)

/-- Calls, queues and the test bus agree. A port holds at most one binding (R66), is BOUND exactly when it holds one outside
CLEARING (R37), is queued, once, exactly in WAIT_SLOT (R96), and is in TEST exactly while it is on the bus (R166). The
ring queue and the ringing list hold exactly the bindings in RING_WAIT and in RINGING, each once (R116). A withdrawn
record's port is in QUARANTINE or in TEST (R180). -/
abbrev CallsPlaced (s : State) : Prop :=
  (∀ e f, ∀ b ∈ (s.entry e).binding, ∀ c ∈ (s.entry f).binding, b.port = c.port → e = f) ∧
  (∀ p, (s.port p).sup = .bound ↔ ∃ e, ∃ b ∈ (s.entry e).binding, b.port = p ∧ b.phase ≠ .clearing) ∧
  (s.owq.map (·.port)).Nodup ∧ (∀ p, p ∈ s.owq.map (·.port) ↔ (s.port p).sup = .waitSlot) ∧
  (s.ringQueue.map (·.handle)).Nodup ∧
  (∀ q ∈ s.ringQueue, ∃ e, ∃ b ∈ (s.entry e).binding, b.handle = q.handle ∧ b.port = q.port ∧ b.phase = .ringWait) ∧
  (∀ e, ∀ b ∈ (s.entry e).binding, b.phase = .ringWait → b.handle ∈ s.ringQueue.map (·.handle)) ∧
  (s.ringList.map (·.handle)).Nodup ∧
  (∀ r ∈ s.ringList, ∃ e, ∃ b ∈ (s.entry e).binding, b.handle = r.handle ∧ b.port = r.port ∧ b.phase = .ringing) ∧
  (∀ e, ∀ b ∈ (s.entry e).binding, b.phase = .ringing → b.handle ∈ s.ringList.map (·.handle)) ∧
  (∀ p, (s.port p).sup = .test ↔ s.bus.map (·.port) = some p) ∧
  ∀ p, (s.line p).withdrawn = true → (s.port p).sup = .quarantine ∨ (s.port p).sup = .test

end Sys2Proof.Safety
end

