-- ==== Sys2Proof/Certificates/Slice0/Obligations.lean ====
section
/-!
DEFINITION. Certificates/Slice0/Obligations.lean: the statements for the provers, in the order of the manual's parts.
Where a statement gives the next state as a record update, every field it does not name is unchanged.
-/

open Sys2Proof Sys2Proof.Machine Sys2Proof.Safety

/-! ## The block, its clock and its reset -/

/-- A step takes the command at the front of the queue and runs it on the state with the queue's rest. -/
def Obligations.StepTakesFront : Prop :=
  ∀ (c : Instr) (rest : List Instr) (s : State),
    s.pending = c :: rest → step s = exec c { s with pending := rest }

/-- With no command waiting, a step takes an event that is due, and an event is due exactly when its time has come; with
none due, one millisecond passes (log entries 1 and 2). R18, R30, R33, R34, R69, R103, R112, R140, R174, R184, R193 and R206
give the times. -/
def Obligations.ClockTakesWhatIsDue : Prop :=
  (∀ s : State, s.pending = [] →
    (s.dueNext = none → s.due = [] ∧ step s = .next s.tick) ∧
    (∀ c, s.dueNext = some c → c ∈ s.due ∧ step s = exec c s.draw ∧
      (∀ p, c = .offHookDeclared p → ∃ n, (s.port p).classifier = .closure n ∧
        (if s.call p = none ∧ s.sense.power ≠ .normal ∧ (s.port p).sup = .idle then 200 else 30) ≤ n) ∧
      (∀ p, c = .onHookDeclared p → ∃ n, (s.port p).classifier = .breaking n ∧ 900 ≤ n) ∧
      (∀ p, c = .digitEnd p → (s.port p).classifier = .make ∧ ∃ n, (s.port p).makeTimer = some n ∧ 250 ≤ n) ∧
      (∀ p, c = .pulseEnd p → (s.port p).injector = .pulse 0) ∧
      (∀ p, c = .gapEnd p → (s.port p).injector = .gap 0) ∧
      (∀ h, c = .tAcceptExpiry h → ∃ e b, (s.entry e).binding = some b ∧ b.handle = h ∧ b.phase = .seizing ∧
        b.tAccept = some 0) ∧
      (∀ h, c = .tRingwaitExpiry h → ∃ e b, (s.entry e).binding = some b ∧ b.handle = h ∧ b.phase = .ringWait ∧
        b.tRingwait = some 0) ∧
      (∀ h, c = .tRingmaxExpiry h → ∃ e b, (s.entry e).binding = some b ∧ b.handle = h ∧
        (b.phase = .ringWait ∨ b.phase = .ringing) ∧ b.tRingmax = some 0) ∧
      (∀ h, c = .tReleaseExpiry h → ∃ e b, (s.entry e).binding = some b ∧ b.handle = h ∧ b.phase = .clearing ∧
        b.tRelease = some 0) ∧
      (∀ h, c = .segmentEnd h → ∃ r ∈ s.ringList, r.handle = h ∧ r.left = 0) ∧
      (∀ p, c = .tWaitExpiry p → ∃ w ∈ s.owq, w.port = p ∧ w.left = 0) ∧
      (c = .rangeStep → ∃ w, s.engine = .walk w ∧ w.left = 0) ∧
      (c = .sweepStep → s.sweepLeft = 0) ∧
      (c = .lossHoldExpiry → s.lossHold = some 0) ∧
      (c = .alignmentHoldExpiry → s.alignHold = some 0) ∧
      (c = .tTestExpiry → ∃ h, s.bus = some h ∧ h.left = 0) ∧
      (∀ failed, c = .storeClearEnd failed → s.engine = .storeClear 0))) ∧
  (∀ s : State, s.storeClearing = false →
    (∀ p n, (s.port p).classifier = .closure n →
      (if s.call p = none ∧ s.sense.power ≠ .normal ∧ (s.port p).sup = .idle then 200 else 30) ≤ n →
      .offHookDeclared p ∈ s.due) ∧
    (∀ p n, (s.port p).classifier = .breaking n → 900 ≤ n → .onHookDeclared p ∈ s.due) ∧
    (∀ p n, (s.port p).classifier = .make → (s.port p).makeTimer = some n → 250 ≤ n → .digitEnd p ∈ s.due) ∧
    (∀ p, (s.port p).injector = .pulse 0 → .pulseEnd p ∈ s.due) ∧
    (∀ p, (s.port p).injector = .gap 0 → .gapEnd p ∈ s.due) ∧
    (∀ e b, (s.entry e).binding = some b →
      (b.phase = .seizing → b.tAccept = some 0 → .tAcceptExpiry b.handle ∈ s.due) ∧
      (b.phase = .ringWait → b.tRingwait = some 0 → .tRingwaitExpiry b.handle ∈ s.due) ∧
      (b.phase = .ringWait ∨ b.phase = .ringing → b.tRingmax = some 0 → .tRingmaxExpiry b.handle ∈ s.due) ∧
      (b.phase = .clearing → b.tRelease = some 0 → .tReleaseExpiry b.handle ∈ s.due)) ∧
    (∀ r ∈ s.ringList, r.left = 0 → .segmentEnd r.handle ∈ s.due) ∧
    (∀ w ∈ s.owq, w.left = 0 → .tWaitExpiry w.port ∈ s.due) ∧
    (∀ w, s.engine = .walk w → w.left = 0 → .rangeStep ∈ s.due) ∧
    (s.sweepLeft = 0 → .sweepStep ∈ s.due) ∧ (s.lossHold = some 0 → .lossHoldExpiry ∈ s.due) ∧
    (s.alignHold = some 0 → .alignmentHoldExpiry ∈ s.due) ∧
    (∀ h, s.bus = some h → h.left = 0 → .tTestExpiry ∈ s.due)) ∧
  (∀ s : State, s.engine = .storeClear 0 → ∃ failed, s.due = [.storeClearEnd failed]) ∧
  (∀ s : State, s.storeClearing = false →
    s.tick =
      { s with
        ports := s.ports.map fun q =>
          { q with
            classifier := match q.classifier with
              | .closure n => .closure (n + 1)
              | .breaking n => .breaking (n + 1)
              | x => x
            makeTimer := match q.classifier with
              | .make => q.makeTimer.map (· + 1)
              | _ => q.makeTimer
            injector := match q.injector with
              | .pulse n => .pulse (n - 1)
              | .gap n => .gap (n - 1)
              | .idle => .idle }
        entries := s.entries.map fun r =>
          { r with
            binding := r.binding.map fun b =>
              { b with
                tAccept := b.tAccept.map (· - 1), tRingwait := b.tRingwait.map (· - 1)
                tRingmax := b.tRingmax.map (· - 1), tRelease := b.tRelease.map (· - 1) } }
        owq := s.owq.map fun w => { w with left := w.left - 1 }
        ringList := s.ringList.map fun r => { r with left := r.left - 1 }
        bus := s.bus.map fun h => { h with left := h.left - 1 }
        engine := match s.engine with
          | .walk w => .walk { w with left := w.left - 1 }
          | x => x
        sweepLeft := s.sweepLeft - 1
        lossHold := s.lossHold.map (· - 1)
        alignHold := s.alignHold.map (· - 1) }) ∧
  ∀ (s : State) (k : Nat), s.engine = .storeClear k → s.tick = { s with engine := .storeClear (k - 1) }

/-- The state right after the store clear of a power-on, as the manual gives it block by block. That the link stays DOWN
with no alignment hold, and that every loop is open, is the model's choice of the inputs at reset: R207 starts the hold
when the framer indication stands ALIGNED (log entry 9) (R22, R47, R63, R92, R96,
R111, R134, R147, R164, R166, R184, R196, 11.4, R204, R207). -/
def Obligations.ResetValues : Prop :=
  (∀ p : PortNo,
    State.reset.line p =
      { status := .vacant, key := none, cls := .ordinary, load := 8, cadence := 0, reverse := false,
        meterPulse := false, keep := false, total := 0, damaged := false, withdrawn := false } ∧
    State.reset.indexKey p = none ∧ (State.reset.port p).sup = .vacant ∧ (State.reset.port p).hook = .on ∧
    (State.reset.port p).parkPending = false ∧ (State.reset.port p).pulses = 0 ∧
    (State.reset.port p).makeTimer = none ∧ (State.reset.port p).classifier = .atRest ∧
    (State.reset.port p).injector = .idle ∧ State.reset.latch p = .feedOff ∧ State.reset.applied p = .feedOff ∧
    State.reset.tone p = false) ∧
  (∀ n : SlotNo,
    State.reset.slot n = { state := .free, handle := 0, blockPending := false, damaged := false }) ∧
  State.reset.pool.map slotNumber = [1, 2, 3, 4, 5, 6, 7, 8, 9, 10, 11, 12, 13, 14, 15] ∧
  (∀ e : EntryNo, State.reset.entry e = { binding := none, damaged := false }) ∧
  State.reset.nextHandle = 1 ∧ State.reset.owq = [] ∧ State.reset.ringQueue = [] ∧ State.reset.ringList = [] ∧
  State.reset.committed = 0 ∧ State.reset.available = 0 ∧
  State.reset.cadences = #v[[8, 4, 8, 40], [20, 80], [16, 8, 16, 80], [5, 5, 5, 5, 5, 60]] ∧
  State.reset.sense =
    { heldB := none, heldT := none, runB := 0, runT := 0, faultB := false, faultT := false, power := .normal,
      band := .cool } ∧
  State.reset.bus = none ∧ State.reset.sweepPos = 0 ∧ State.reset.sweepLeft = 50 ∧ State.reset.link = .down ∧
  State.reset.lossHold = none ∧ State.reset.alignHold = none ∧
  State.reset.engine = .idle ∧ State.reset.assembly = [] ∧ State.reset.pendingRestart = .power 0 ∧
  State.reset.keyPrefix = 0 ∧ State.reset.cursor = 0 ∧
  State.reset.advance = { write := false, read := false, direction := .up } ∧
  State.reset.params =
    { g := 40, bFull := 520, bCut := 440, bConserve := 480, bSurvive := 450, tHot := 60, tTrip := 75, reserve := 1,
      tAccept := 3, tWait := 10, tRingwait := 8, tRingmax := 180, tRelease := 4, tTest := 10, tone := true,
      battery := true, temperature := true } ∧
  State.reset.counters.values = [0, 0, 0, 0, 0, 0, 0, 0, 0, 0, 0]

/-! ## The channel -/

/-- Writing a message into its frame and reading the frame gives the message back, for every message of the exchange
with every operand its octets admit; the frame holds 4 to 64 octets, opens with its length, and its octets sum to a
multiple of 256 (11.1, R188, R190). An address of a form octet that names none has no size, and is left out. -/
def Obligations.FramesRoundTrip : Prop :=
  ∀ (i : Instr) (frame : List Nat), i.wf = true → (∀ form, addressOf i ≠ some (.unknown form)) →
    encodeFrame i = some frame →
    decodeFrame frame = i ∧ 4 ≤ frame.length ∧ frame.length ≤ 64 ∧ frame.head? = some frame.length ∧
      frame.sum % 256 = 0 ∧ ∀ o ∈ frame, o < 256

/-- A message of the part leaves in a frame that opens with its length, its type and its tag and whose octets sum to a
multiple of 256 (11.1); every message but the replies carries tag 0 (R191). -/
def Obligations.PartFramesAreWellMade : Prop :=
  (∀ m : Message, m.frame.sum % 256 = 0 ∧ m.frame.head? = some m.frame.length ∧
    m.frame[1]? = some m.parts.1 ∧ m.frame[2]? = some m.parts.2.1) ∧
  (∀ h n p k, (Message.seize h n p k).parts.2.1 = 0) ∧ (∀ h d, (Message.digit h d).parts.2.1 = 0) ∧
  (∀ h, (Message.flash h).parts.2.1 = 0) ∧ (∀ h, (Message.answered h).parts.2.1 = 0) ∧
  (∀ h c n, (Message.clear h c n).parts.2.1 = 0) ∧ (∀ a b c d, (Message.power a b c d).parts.2.1 = 0) ∧
  (∀ c k, (Message.sense c k).parts.2.1 = 0) ∧ (∀ k n h, (Message.integrity k n h).parts.2.1 = 0) ∧
  (∀ p a, (Message.testEnded p a).parts.2.1 = 0) ∧ (∀ p k n, (Message.ceased p k n).parts.2.1 = 0) ∧
  (∀ c n, (Message.restart c n).parts.2.1 = 0) ∧ (∀ t c, (Message.ack t c).parts.2.1 = t) ∧
  (∀ t h n, (Message.bound t h n).parts.2.1 = t) ∧ (∀ t r, (Message.refused t r).parts.2.1 = t) ∧
  (∀ t h n, (Message.cleared t h n).parts.2.1 = t)

/-- The octets of a frame, taken one after another, gather in the assembly, and the last one hands over the message they
spell (R189, R190). -/
def Obligations.OctetsMakeAMessage : Prop :=
  ∀ (s : State) (frame : List Nat), Listening s → 4 ≤ frame.length → frame.length ≤ 64 →
    frame.head? = some frame.length → frame.sum % 256 = 0 →
    (∀ k (h : k + 1 < frame.length),
      exec (.octetTaken frame[k]) { s with assembly := frame.take k } =
        .next { s with assembly := frame.take (k + 1) }) ∧
    (∀ i last, frame.getLast? = some last → decodeFrame frame = i → isMessage i = true →
      exec (.octetTaken last) { s with assembly := frame.dropLast } = exec i { s with assembly := [] })

/-- A length octet outside 4 to 64, a frame whose octets do not sum to a multiple of 256, and BAD_FRAME are discarded and
counted; BAD_MESSAGE is answered and changes nothing else. While the link is not UP or the framer indication is not
ALIGNED, octets and messages are discarded and counted nowhere (R189, R190; log entry 6). -/
def Obligations.FramesAreDiscarded : Prop :=
  (∀ s : State, Listening s →
     (exec .badFrame s =
       .next { s with assembly := [], counters := { s.counters with badFrames := min (s.counters.badFrames + 1) 65535 } }) ∧
     (∀ o, o < 4 ∨ 64 < o → s.assembly = [] →
       exec (.octetTaken o) s =
         .next { s with counters := { s.counters with badFrames := min (s.counters.badFrames + 1) 65535 } }) ∧
     (∀ o, s.assembly.head? = some (s.assembly.length + 1) → (s.assembly.sum + o) % 256 ≠ 0 →
       exec (.octetTaken o) s =
         .next { s with
           assembly := [], counters := { s.counters with badFrames := min (s.counters.badFrames + 1) 65535 } }) ∧
     (∀ tag, Quiet s → exec (.badMessage tag) s = .next (answering s [.ack tag .badMessage]))) ∧
  ∀ s : State, ¬ Listening s →
    (∀ i, isMessage i = true → exec i s = .next s) ∧ (∀ o, exec (.octetTaken o) s = .next s) ∧
      exec .badFrame s = .next s

/-! ## Addresses, cursor and key prefix -/

/-- An address resolves against the key index, the prefix and the cursor as they stand (R6). The forms a message does not
accept are answered BAD_VALUE, a form that does not resolve UNKNOWN_LINE, and nothing changes (R6, R7). -/
def Obligations.AddressesResolve : Prop :=
  (∀ s : State,
     (∀ v, s.resolve (.port v) = if h : v < 48 then .port ⟨v, h⟩ else .fails .unknownLine) ∧
     (∀ v p, (∀ q, s.indexKey q = some (s.keyPrefix * 65536 + v) ↔ q = p) → s.resolve (.shortKey v) = .port p) ∧
     (∀ v, (∀ q, s.indexKey q ≠ some (s.keyPrefix * 65536 + v)) → s.resolve (.shortKey v) = .fails .unknownLine) ∧
     (∀ k p, (∀ q, s.indexKey q = some k ↔ q = p) → s.resolve (.longKey k) = .port p) ∧
     (∀ k, (∀ q, s.indexKey q ≠ some k) → s.resolve (.longKey k) = .fails .unknownLine) ∧
     s.resolve .cursor = .port s.cursor) ∧
  ∀ (s : State) (tag : Nat) (a : Address), Listening s → Quiet s →
    (∀ code, s.resolve a = .fails code →
      exec (.readLine tag a) s = .next (answering s [.ack tag code]) ∧
      (s.engine = .idle → exec (.ceaseLine tag a) s = .next (answering s [.ack tag code])) ∧
      (∀ c, exec (.offer tag a c) s = .next (answering s [.refused tag code])) ∧
      exec (.queryLine tag a) s = .next (answering s [.ack tag code]) ∧
      (∀ f, exec (.testConnect tag a f) s = .next (answering s [.ack tag code])) ∧
      exec (.testRelease tag a) s = .next (answering s [.ack tag code])) ∧
    (∀ v, a = .handle v ∨ a = .unknown v → s.resolve a = .fails .badValue) ∧
    (a = .cursor →
      (∀ c, exec (.offer tag a c) s = .next (answering s [.refused tag .badValue])) ∧
      exec (.queryLine tag a) s = .next (answering s [.ack tag .badValue]) ∧
      (∀ f, exec (.testConnect tag a f) s = .next (answering s [.ack tag .badValue])) ∧
      exec (.testRelease tag a) s = .next (answering s [.ack tag .badValue])) ∧
    (∀ v w, s.engine = .idle → a = .shortKey v ∨ a = .longKey v ∨ a = .handle v ∨ a = .unknown v →
      exec (.writeLine tag a w) s = .next (answering s [.ack tag .badValue])) ∧
    (∀ v w, s.engine = .idle → a = .port v → 48 ≤ v →
      exec (.writeLine tag a w) s = .next (answering s [.ack tag .unknownLine]))

/-- SET_PREFIX (R5): the prefix is replaced while the engine is IDLE and kept while it is BUSY; it widens short keys from
then on; it is 0 after store clear and kept by a warm reset. -/
def Obligations.SetPrefix : Prop :=
  State.reset.keyPrefix = 0 ∧
  (∀ s failed left, s.engine = .storeClear left →
    ∃ t, exec (.storeClearEnd failed) s = .next t ∧ t.keyPrefix = 0) ∧
  ∀ (s : State) (tag v : Nat), Listening s → Quiet s →
    (s.engine = .idle →
      exec (.setPrefix tag v) s = .next { answering s [.ack tag .ok] with keyPrefix := v }) ∧
    (s.engine ≠ .idle → exec (.setPrefix tag v) s = .next (answering s [.ack tag .busy])) ∧
    (∀ x, ({ s with keyPrefix := v } : State).resolve (.shortKey x) = s.resolve (.longKey (v * 65536 + x))) ∧
    (∃ t, exec (.resetCabinet tag) s = .next t ∧ t.keyPrefix = s.keyPrefix) ∧
    (s.resetLine = .released → s.storeClearing = false →
      ∃ t, exec .resetLineAsserted s = .next t ∧ t.keyPrefix = s.keyPrefix)

/-- SET_CURSOR and SET_ADVANCE (R198, R199). The direction UP moves to the next higher port and wraps 47 to 0, DOWN to
the next lower and wraps 0 to 47. -/
def Obligations.CursorRequests : Prop :=
  (∀ p : PortNo, (cursorStep .up p).val = (if p.val = 47 then 0 else p.val + 1) ∧
    (cursorStep .down p).val = (if p.val = 0 then 47 else p.val - 1)) ∧
  AdvanceMode.initial = { write := false, read := false, direction := .up } ∧
  ∀ (s : State) (tag : Nat), Listening s → Quiet s →
    (∀ v (h : v < 48), s.engine = .idle →
      exec (.setCursor tag v) s = .next { answering s [.ack tag .ok] with cursor := ⟨v, h⟩ }) ∧
    (∀ v, 48 ≤ v → s.engine = .idle →
      exec (.setCursor tag v) s = .next { answering s [.ack tag .clamped] with cursor := 47 }) ∧
    (∀ v, s.engine ≠ .idle → exec (.setCursor tag v) s = .next (answering s [.ack tag .busy])) ∧
    (∀ w r, s.engine = .idle →
      exec (.setAdvance tag w r 0) s =
        .next { answering s [.ack tag .ok] with advance := { write := w, read := r, direction := .up } }) ∧
    (∀ w r, s.engine = .idle →
      exec (.setAdvance tag w r 1) s =
        .next { answering s [.ack tag .ok] with advance := { write := w, read := r, direction := .down } }) ∧
    (∀ w r d, 2 ≤ d → s.engine = .idle →
      exec (.setAdvance tag w r d) s = .next (answering s [.ack tag .badValue])) ∧
    (∀ w r d, s.engine ≠ .idle → exec (.setAdvance tag w r d) s = .next (answering s [.ack tag .busy]))

/-- While the provisioning engine is BUSY, its eight requests are refused BUSY (R17). -/
def Obligations.EngineBusyRefuses : Prop :=
  ∀ (s : State) (tag : Nat), Listening s → Quiet s → s.engine ≠ .idle →
    (∀ a w, exec (.writeLine tag a w) s = .next (answering s [.ack tag .busy])) ∧
    (∀ a, exec (.ceaseLine tag a) s = .next (answering s [.ack tag .busy])) ∧
    (∀ f l, exec (.clearRange tag f l) s = .next (answering s [.ack tag .busy])) ∧
    (∀ v, exec (.setCursor tag v) s = .next (answering s [.ack tag .busy])) ∧
    (∀ w r d, exec (.setAdvance tag w r d) s = .next (answering s [.ack tag .busy])) ∧
    (∀ v, exec (.setPrefix tag v) s = .next (answering s [.ack tag .busy])) ∧
    (∀ n ds, exec (.setCadence tag n ds) s = .next (answering s [.ack tag .busy])) ∧
    (∀ p v, exec (.setParam tag p v) s = .next (answering s [.ack tag .busy]))

/-! ## Line records -/

/-- READ_LINE of a record that reads without a check failure (R8): the reply shows the port's supervision state, its hook
(ON while PARKED or VACANT) and the record, absent while it is withdrawn; a CURSOR-addressed read moves the cursor when
read advance is on (R200). -/
def Obligations.ReadLineReplies : Prop :=
  ∀ (s : State) (tag : Nat) (a : Address) (p : PortNo), Listening s → Quiet s → s.resolve a = .port p → Reads s p →
    exec (.readLine tag a) s =
      .next { answering s
          [.lineData tag p (s.port p).sup
            (if (s.port p).sup = .vacant ∨ (s.port p).sup = .parked then .on else (s.port p).hook)
            (if (s.line p).withdrawn = true then none
             else some
              { status := (s.line p).status, key := (s.line p).key, cls := (s.line p).cls, load := (s.line p).load,
                cadence := (s.line p).cadence, reverse := (s.line p).reverse, meterPulse := (s.line p).meterPulse,
                keep := (s.line p).keep, total := (s.line p).total })] with
        cursor := if a = .cursor ∧ s.advance.read = true then cursorStep s.advance.direction s.cursor
                  else s.cursor }

/-- A read finds a line record damaged on a port without a live binding (R8, R46, R177, R179): the record is withdrawn,
the key leaves the index, a waiting port leaves the queue, the port goes to QUARANTINE (a port in TEST stays), the fault
is counted, and STORE_FAULT is answered before the INTEGRITY report. -/
def Obligations.LineFailureIsHandled : Prop :=
  ∀ (s : State) (tag : Nat) (a : Address) (p : PortNo), Listening s → Quiet s → s.resolve a = .port p →
    (s.line p).damaged = true → (s.line p).withdrawn = false → s.call p = none →
    ∃ t, exec (.readLine tag a) s = .next t ∧
      (a ≠ .cursor → exec (.queryLine tag a) s = .next t) ∧
      t = { answering s [.ack tag .storeFault, .integrity .line p.val 0] with
        lines := s.lines.set p { s.line p with withdrawn := true }
        keyIndex := s.keyIndex.set p none
        owq := s.owq.filter fun w => !decide (w.port = p)
        counters := { s.counters with integrityFaults := min (s.counters.integrityFaults + 1) 65535 }
        ports := s.ports.set p (quarantined (s.port p)) }

/-- Moving a port between supervision states (R25, R31): losing the feed forces the hook ON and discards what is timed;
gaining it looks at the loop, and a closed loop starts closure timing; between two fed states nothing else changes. -/
def Obligations.FeedGovernsTheHook : Prop :=
  ∀ (q : Port) (st : SupState),
    (q.place st).sup = st ∧ (q.place st).lineClosed = q.lineClosed ∧ (q.place st).parkPending = q.parkPending ∧
    (q.place st).injector = q.injector ∧ (q.place st).testLatch = q.testLatch ∧
    (st = .vacant ∨ st = .parked →
      (q.place st).hook = .on ∧ (q.place st).classifier = .atRest ∧ (q.place st).pulses = 0 ∧
        (q.place st).makeTimer = none) ∧
    (st ≠ .vacant → st ≠ .parked →
      (q.place st).hook = q.hook ∧ (q.place st).pulses = q.pulses ∧ (q.place st).makeTimer = q.makeTimer ∧
      (q.sup = .vacant ∨ q.sup = .parked →
        (q.place st).classifier = (if q.lineClosed = true then .closure 0 else .atRest)) ∧
      (q.sup ≠ .vacant → q.sup ≠ .parked → (q.place st).classifier = q.classifier))

/-- WRITE_LINE of a status ACTIVE, OUTBAR or FULLBAR that passes its checks (R9, R10, R11, R200). -/
def Obligations.WriteLinePutsInService : Prop :=
  ∀ (s : State) (tag : Nat) (a : Address) (p : PortNo) (w : LineWrite) (st : LineStatus) (c : LineClass),
    Listening s → Quiet s → s.engine = .idle → a = .port p.val ∨ (a = .cursor ∧ s.cursor = p) →
    (w.status, st) ∈ [(1, LineStatus.active), (2, LineStatus.outbar), (3, LineStatus.fullbar)] →
    (w.cls, c) ∈ [(0, LineClass.ordinary), (1, LineClass.priority)] →
    Reads s p → s.call p = none → (s.port p).sup ≠ .waitSlot → (s.port p).sup ≠ .bound →
    (∀ q, q ≠ p → s.indexKey q ≠ some w.key) →
    exec (.writeLine tag a w) s =
      .next { answering s
          [.ack tag (if 1 ≤ w.load ∧ w.load ≤ 40 ∧ w.cadence ≤ 3 then .ok else .clamped)] with
        lines := s.lines.set p
          { status := st, key := some w.key, cls := c, load := max 1 (min w.load 40),
            cadence := ⟨min w.cadence 3, by omega⟩, reverse := w.reverse, meterPulse := w.meterPulse, keep := w.keep,
            total := if w.meterReset = true then 0 else (s.line p).total, damaged := false, withdrawn := false }
        keyIndex := s.keyIndex.set p (some w.key)
        ports := s.ports.set p
          (let parkable := decide (s.sense.power = .survival) && decide (c = .ordinary) && !w.keep
           match (s.port p).sup, (s.port p).hook with
           | .test, _ => s.port p
           | .lockout, _ => { s.port p with parkPending := parkable }
           | .quarantine, .off => { s.port p with parkPending := parkable }.place .lockout
           | _, _ => { s.port p with parkPending := false }.place (if parkable then .parked else .idle))
        cursor := if a = .cursor ∧ s.advance.write = true then cursorStep s.advance.direction s.cursor else s.cursor }

/-- WRITE_LINE: the refusals of R9 after its address checks, and a write of status VACANT, which acts as a cease and
honours meter-reset (R12); a CURSOR-addressed write that succeeds moves the cursor (R200). A port in WAIT_SLOT is refused
for every status (log entry 32); a line is already VACANT by the status of a record in use (log entry 23). A damaged
record is handled as by a READ_LINE (R9 check 5, R179). -/
def Obligations.WriteLineRefusesOrVacates : Prop :=
  ∀ (s : State) (tag : Nat) (a : Address) (p : PortNo) (w : LineWrite), Listening s → Quiet s → s.engine = .idle →
    a = .port p.val ∨ (a = .cursor ∧ s.cursor = p) →
    (4 ≤ w.status ∨ 2 ≤ w.cls → exec (.writeLine tag a w) s = .next (answering s [.ack tag .badValue])) ∧
    (w.status ≤ 3 → w.cls ≤ 1 → (s.line p).damaged = true → (s.line p).withdrawn = false →
      exec (.writeLine tag a w) s = exec (.readLine tag (.port p.val)) s ∧
      (s.call p = none →
        exec (.writeLine tag a w) s =
          .next (quarantining (answering s [.ack tag .storeFault, .integrity .line p.val 0]) p))) ∧
    (w.status ≤ 3 → w.cls ≤ 1 → Reads s p → s.call p ≠ none ∨ (s.port p).sup = .waitSlot →
      exec (.writeLine tag a w) s = .next (answering s [.ack tag .lineBusy])) ∧
    (∀ q, 1 ≤ w.status → w.status ≤ 3 → w.cls ≤ 1 → Reads s p → s.call p = none → (s.port p).sup ≠ .waitSlot →
      q ≠ p → (∀ r, s.indexKey r = some w.key ↔ r = q) →
      exec (.writeLine tag a w) s = .next (answering s [.ack tag .duplicateKey])) ∧
    (w.status = 0 → w.cls ≤ 1 → Reads s p → s.call p = none → (s.port p).sup ≠ .waitSlot →
      ∀ next : PortNo,
        next = (if a = .cursor ∧ s.advance.write = true then cursorStep s.advance.direction s.cursor else s.cursor) →
      ((s.line p).status ≠ .vacant ∨ (s.line p).withdrawn = true →
        exec (.writeLine tag a w) s =
          .next { answering s [.ack tag .ok] with
            lines := s.lines.set p
              { LineRecord.initial with total := if w.meterReset = true then 0 else (s.line p).total }
            keyIndex := s.keyIndex.set p none
            owq := s.owq.filter fun x => !decide (x.port = p)
            ports := s.ports.set p (vacated (s.port p))
            cursor := next }) ∧
      ((s.line p).status = .vacant → (s.line p).withdrawn = false →
        exec (.writeLine tag a w) s =
          .next { answering s [.ack tag .ok] with
            lines := if w.meterReset = true then s.lines.set p { s.line p with total := 0 } else s.lines
            cursor := next }))

/-- CEASE_LINE: a VACANT line is left as it is; a line without a call is ceased at once; a line with a call becomes
CEASING, and a withdrawn record is rewritten without being read (R13, R14, R16). A line is already VACANT by the status of
a record in use, a port in TEST included: the model's reading (log entry 23). A record that reads damaged gets the line
failure actions and STORE_FAULT; a live call outside CLEARING goes to CLEARING, or, its entry damaged too, retires at once,
its port settled by its hook before it goes to QUARANTINE (R13, R178, R179, R181, R182). -/
def Obligations.CeaseLineCeases : Prop :=
  ∀ (s : State) (tag : Nat) (a : Address) (p : PortNo), Listening s → Quiet s → s.engine = .idle →
    s.resolve a = .port p →
    (InUse s p → (s.line p).status = .vacant →
      exec (.ceaseLine tag a) s = .next (answering s [.ack tag .ok])) ∧
    (s.call p = none → (s.line p).withdrawn = true ∨ (InUse s p ∧ (s.line p).status ≠ .vacant) →
      exec (.ceaseLine tag a) s =
        .next { answering s [.ack tag .ok] with
          lines := s.lines.set p { LineRecord.initial with total := (s.line p).total }
          keyIndex := s.keyIndex.set p none
          owq := s.owq.filter fun x => !decide (x.port = p)
          ports := s.ports.set p (vacated (s.port p)) }) ∧
    (s.call p ≠ none → InUse s p → (s.line p).status ≠ .vacant →
      exec (.ceaseLine tag a) s =
        .next (lining (answering s [.ack tag .ceasePending]) p { s.line p with status := .ceasing })) ∧
    (s.call p ≠ none → (s.line p).withdrawn = true → (s.port p).sup = .quarantine ∨ (s.port p).sup = .test →
      exec (.ceaseLine tag a) s =
        .next { lining (answering s [.ack tag .ceasePending]) p { s.line p with status := .ceasing, key := none } with
          ports := s.ports.set p
            (let parkable := decide (s.sense.power = .survival) && decide ((s.line p).cls = .ordinary) &&
               !(s.line p).keep
             match (s.port p).sup, (s.port p).hook with
             | .test, _ => s.port p
             | _, .off => { s.port p with parkPending := parkable }.place .lockout
             | _, .on => { s.port p with parkPending := false }.place (if parkable then .parked else .idle)) }) ∧
    ((s.line p).damaged = true → (s.line p).withdrawn = false →
      ((∀ e b, s.call p = some (e, b) → b.phase = .clearing) →
        exec (.ceaseLine tag a) s =
          .next (quarantining (answering s [.ack tag .storeFault, .integrity .line p.val 0]) p)) ∧
      (∀ e b, Holds s p e b → b.phase ≠ .clearing → NotRinging s b.handle ∨ EntriesRead s →
        exec (.ceaseLine tag a) s =
          .next (callLineLost
            (leftRinging
              (answering s
                [.clear b.handle .storeFault b.meterCount, .ack tag .storeFault,
                 .integrity .line p.val b.handle]) b.handle) e b)) ∧
      ∀ e b, s.call p = some (e, b) → b.phase ≠ .clearing → (s.entry e).damaged = true →
        NotRinging s b.handle ∨ (∀ f, f ≠ e → (s.entry f).damaged = false) →
        ∀ q : Port, q = quarantined (settled { s.port p with injector := .idle }) →
        ((s.slot b.slot).damaged = false → ∀ h, h = (s.slot b.slot).handle →
          exec (.ceaseLine tag a) s =
            .next { bindingLost
                (leftRinging
                  (faulted
                    (quarantining
                      (answering s
                        [.clear h .storeFault b.meterCount, .ack tag .storeFault,
                         .integrity .line p.val h, .integrity .binding e.val h]) p) 1) b.handle) e b with
              ports := s.ports.set p q }) ∧
        ((s.slot b.slot).damaged = true →
          exec (.ceaseLine tag a) s =
            .next { bindingLost
                (leftRinging
                  (faulted
                    (quarantining
                      (answering s
                        [.ack tag .storeFault, .integrity .line p.val 0, .integrity .binding e.val 0,
                         .integrity .slot (b.slot.val + 1) 0]) p) 2) b.handle) e b with
              ports := s.ports.set p q }))

/-- CLEAR_RANGE starts a range walk without a reply (R18). Each RANGE_STEP ceases the port at the walk position as
CEASE_LINE does, counts it, and moves on 20 ms later; the step at `last` ends the walk with OK and the counts, sent
unless the link was lost on the way (R19, R20). A line already VACANT is in neither count; one without a call is made
VACANT, one with a call CEASING, a withdrawn record in either case rewritten (R13, R14, R16, R19). What counts as already VACANT, and STORE_FAULT before the INTEGRITY
report, are the model's readings (log entries 23 and 25). -/
def Obligations.RangeWalkSteps : Prop :=
  (∀ (s : State) (tag first last : Nat), Listening s → Quiet s → s.engine = .idle →
    (∀ (hf : first < 48), last < 48 → first ≤ last →
      ∃ l : PortNo, l.val = last ∧ exec (.clearRange tag first last) s =
        .next { answering s [] with
          engine := .walk
            { tag := tag, pos := ⟨first, hf⟩, last := l, madeVacant := 0, madeCeasing := 0, linkLost := false,
              left := 20 } }) ∧
    (48 ≤ first ∨ 48 ≤ last ∨ last < first →
      exec (.clearRange tag first last) s = .next (answering s [.ack tag .badValue]))) ∧
  ∀ (s : State) (w : RangeWalk), Quiet s → s.engine = .walk w →
    (w.pos < w.last → (s.cease w.pos).2 ≠ .damaged →
      exec .rangeStep s =
        .next { (s.cease w.pos).1 with
          engine := .walk
            { w with
              pos := w.pos + 1
              left := 20
              madeVacant := w.madeVacant + (if (s.cease w.pos).2 = .madeVacant then 1 else 0)
              madeCeasing := w.madeCeasing + (if (s.cease w.pos).2 = .madeCeasing then 1 else 0) } }) ∧
    (w.last ≤ w.pos → (s.cease w.pos).2 ≠ .damaged →
      exec .rangeStep s =
        .next (telling { (s.cease w.pos).1 with engine := .idle }
          (if w.linkLost = true then []
           else [.rangeDone w.tag (w.madeVacant + (if (s.cease w.pos).2 = .madeVacant then 1 else 0))
             (w.madeCeasing + (if (s.cease w.pos).2 = .madeCeasing then 1 else 0))]))) ∧
    (∀ tag, Listening s → (s.cease w.pos).2 ≠ .damaged →
      exec (.ceaseLine tag (.port w.pos.val)) { s with engine := .idle } =
        .next { answering { (s.cease w.pos).1 with engine := .idle }
            [.ack tag (if (s.cease w.pos).2 = .madeCeasing then .ceasePending else .ok)] with assembly := [] }) ∧
    ((s.cease w.pos).2 = .damaged ↔ (s.line w.pos).damaged = true ∧ (s.line w.pos).withdrawn = false) ∧
    ((s.cease w.pos).2 = .already ↔ InUse s w.pos ∧ (s.line w.pos).status = .vacant) ∧
    ((s.cease w.pos).2 = .madeVacant ↔
      ((s.line w.pos).withdrawn = true ∨ (InUse s w.pos ∧ (s.line w.pos).status ≠ .vacant)) ∧
        s.call w.pos = none) ∧
    ((s.cease w.pos).2 = .madeCeasing ↔
      ((s.line w.pos).withdrawn = true ∨ (InUse s w.pos ∧ (s.line w.pos).status ≠ .vacant)) ∧
        s.call w.pos ≠ none) ∧
    ((s.cease w.pos).2 = .damaged → s.call w.pos = none → s.link = .up → w.linkLost = false →
      exec .rangeStep s =
        .next { s with
          engine := .idle
          lines := s.lines.set w.pos { s.line w.pos with withdrawn := true }
          keyIndex := s.keyIndex.set w.pos none
          owq := s.owq.filter fun x => !decide (x.port = w.pos)
          counters := { s.counters with integrityFaults := min (s.counters.integrityFaults + 1) 65535 }
          ports := s.ports.set w.pos (quarantined (s.port w.pos))
          out := { s.out with
            sent := s.out.sent ++ [.ack w.tag .storeFault, .integrity .line w.pos.val 0] } })

/-! ## Calls: OFFER, and the messages that name a handle -/

/-- The refusals of an OFFER whose address resolves, in the order of the checks (R77, R53). The class check compares F,
the length of the pool, with 1 or with the reserve R; it is made again when the slot at the pool head is found damaged
(R51). -/
def Obligations.OfferRefused : Prop :=
  ∀ (s : State) (tag : Nat) (a : Address) (p : PortNo) (c : Option Nat), Listening s → Quiet s →
    s.resolve a = .port p → a ≠ .cursor →
    ((s.line p).withdrawn = true → exec (.offer tag a c) s = .next (answering s [.refused tag .quarantined])) ∧
    (InUse s p →
      ((s.line p).status = .vacant ∨ (s.line p).status = .ceasing →
        exec (.offer tag a c) s = .next (answering s [.refused tag .vacant])) ∧
      ((s.line p).status = .fullbar → exec (.offer tag a c) s = .next (answering s [.refused tag .barred])) ∧
      ((s.line p).status = .active ∨ (s.line p).status = .outbar →
        ((s.port p).sup = .test → exec (.offer tag a c) s = .next (answering s [.refused tag .underTest])) ∧
        ((s.port p).sup = .parked → exec (.offer tag a c) s = .next (answering s [.refused tag .parked])) ∧
        ((s.port p).sup ∉ [.test, .parked, .idle] ∨ ((s.port p).sup = .idle ∧ s.hasClearing p = true) →
          exec (.offer tag a c) s = .next (answering s [.refused tag .lineBusy])) ∧
        ((s.port p).sup = .idle → s.hasClearing p = false →
          (((s.line p).cls = .priority ∧ s.pool.length < 1) ∨
            ((s.line p).cls = .ordinary ∧ s.pool.length ≤ s.params.reserve)) →
          exec (.offer tag a c) s =
            .next { answering s [.refused tag .noSlot] with
              counters := { s.counters with noSlot := min (s.counters.noSlot + 1) 65535 } }) ∧
        (∀ n, (s.port p).sup = .idle → s.hasClearing p = false → Admits s (s.line p).cls → s.pool.head? = some n →
          (s.slot n).damaged = true → ¬ Admits (slotLost s n) (s.line p).cls →
          exec (.offer tag a c) s =
            .next { slotLost (answering s [.refused tag .noSlot, .integrity .slot (n.val + 1) 0]) n with
              counters := { (faulted s 1).counters with noSlot := min (s.counters.noSlot + 1) 65535 } }))) ∧
    ((s.line p).damaged = true → (s.line p).withdrawn = false → s.call p = none →
      exec (.offer tag a c) s =
        .next { answering s [.refused tag .storeFault, .integrity .line p.val 0] with
          lines := s.lines.set p { s.line p with withdrawn := true }
          keyIndex := s.keyIndex.set p none
          owq := s.owq.filter fun w => !decide (w.port = p)
          counters := { s.counters with integrityFaults := min (s.counters.integrityFaults + 1) 65535 }
          ports := s.ports.set p (quarantined (s.port p)) })

/-- The handle of a new binding is the first from the next-handle counter on that is not live, 255 being followed by 1
(R67). -/
def Obligations.HandlesAreChosen : Prop :=
  ∀ s : State, 1 ≤ s.nextHandle → s.nextHandle ≤ 255 →
    ∃ k : Fin 16, s.chooseHandle = (s.nextHandle + k.val - 1) % 255 + 1 ∧ s.byHandle s.chooseHandle = none ∧
      ∀ j : Fin 16, j < k → s.byHandle ((s.nextHandle + j.val - 1) % 255 + 1) ≠ none

/-- An OFFER that passes every check binds the line to the slot at the pool head, answers BOUND and joins the tail of the
ring queue; the budget pass follows (R51, R53, R67, R78). A damaged slot at the pool head is put out of use, and the next
one is taken; its report follows the reply (R51, R178). -/
def Obligations.OfferBinds : Prop :=
  ∀ (s : State) (tag : Nat) (a : Address) (p : PortNo) (c : Option Nat) (n : SlotNo) (e : EntryNo),
    Listening s → Quiet s → s.resolve a = .port p → a ≠ .cursor → InUse s p →
    (s.line p).status = .active ∨ (s.line p).status = .outbar → (s.port p).sup = .idle → s.hasClearing p = false →
    (s.entry e).binding = none → (∀ f : EntryNo, f < e → (s.entry f).binding ≠ none) →
    (s.pool.head? = some n → (s.slot n).damaged = false →
      (s.line p).cls = .priority ∨ s.params.reserve < s.pool.length →
      exec (.offer tag a c) s =
        .next (offerBound (answering s [.bound tag s.chooseHandle (n.val + 1)]) p c n e).budgetPass) ∧
    ∀ m, s.pool.head? = some m → (s.slot m).damaged = true → Admits s (s.line p).cls →
      ∀ u : State, u = slotLost s m → u.pool.head? = some n → (u.slot n).damaged = false → Admits u (s.line p).cls →
      exec (.offer tag a c) s =
        .next
          (offerBound
            (answering u [.bound tag s.chooseHandle (n.val + 1), .integrity .slot (m.val + 1) 0]) p c n e).budgetPass

/-- The refusals of a message that names a handle: a form other than HANDLE, a handle that is not live, a METER count out
of range, and a phase that does not admit the message (R70, R72 to R76, R86). -/
def Obligations.HandleChecks : Prop :=
  ∀ (s : State) (tag : Nat) (a : Address), Listening s → Quiet s →
    ((∀ h, a ≠ .handle h) →
      exec (.grant tag a) s = .next (answering s [.ack tag .badValue]) ∧
      exec (.deny tag a) s = .next (answering s [.ack tag .badValue]) ∧
      exec (.answer tag a) s = .next (answering s [.ack tag .badValue]) ∧
      (∀ c, exec (.clear tag a c) s = .next (answering s [.ack tag .badValue])) ∧
      exec (.cleared tag a) s = .next (answering s [.ack tag .badValue]) ∧
      (∀ n, exec (.meter tag a n) s = .next (answering s [.ack tag .badValue]))) ∧
    (∀ h, s.byHandle h = none →
      exec (.grant tag (.handle h)) s = .next (answering s [.ack tag .stale]) ∧
      exec (.deny tag (.handle h)) s = .next (answering s [.ack tag .stale]) ∧
      exec (.answer tag (.handle h)) s = .next (answering s [.ack tag .stale]) ∧
      (∀ c, exec (.clear tag (.handle h) c) s = .next (answering s [.ack tag .stale])) ∧
      exec (.cleared tag (.handle h)) s = .next (answering s [.ack tag .stale]) ∧
      (∀ n, exec (.meter tag (.handle h) n) s = .next (answering s [.ack tag .stale]))) ∧
    (∀ h e b, Named s h e b →
      (b.phase ≠ .seizing →
        exec (.grant tag (.handle h)) s = .next (answering s [.ack tag .wrongPhase]) ∧
        exec (.deny tag (.handle h)) s = .next (answering s [.ack tag .wrongPhase])) ∧
      (b.phase ≠ .dialling → exec (.answer tag (.handle h)) s = .next (answering s [.ack tag .wrongPhase])) ∧
      (b.phase ≠ .clearing → exec (.cleared tag (.handle h)) s = .next (answering s [.ack tag .wrongPhase])) ∧
      (∀ n, n < 1 ∨ 15 < n → exec (.meter tag (.handle h) n) s = .next (answering s [.ack tag .badValue])) ∧
      (∀ n, 1 ≤ n → n ≤ 15 → b.phase ∈ [Phase.seizing, .ringWait, .ringing] →
        exec (.meter tag (.handle h) n) s = .next (answering s [.ack tag .wrongPhase])))

/-- GRANT takes a SEIZING binding to DIALLING: T_accept stops, and the early list is sent oldest first and leaves the
record (R72). -/
def Obligations.GrantConnects : Prop :=
  ∀ (s : State) (tag h : Nat) (e : EntryNo) (b : Binding), Listening s → Quiet s → Named s h e b → b.phase = .seizing →
    exec (.grant tag (.handle h)) s =
      .next (holding
        (answering s ((b.early.getD []).map fun
          | .digit d => .digit b.handle d
          | .flash => .flash b.handle))
        e (some { b with phase := .dialling, tAccept := none, early := none }))

/-- ANSWER takes a DIALLING binding to CONNECTED, reversal applied when the record of an originating line asks for it;
the latch then feeds the line reversed (R25, R28, R75). A damaged record clears the call with STORE_FAULT instead, its
CLEAR before the reply (R75, R179). -/
def Obligations.AnswerConnects : Prop :=
  ∀ (s : State) (tag h : Nat) (e : EntryNo) (b : Binding), Listening s → Quiet s → Named s h e b →
    b.phase = .dialling →
    (Reads s b.port →
      exec (.answer tag (.handle h)) s =
        .next (holding (answering s []) e
          (some { b with
            phase := .connected
            reversal := decide (b.direction = .orig) && (s.line b.port).reverse && !(s.line b.port).withdrawn }))) ∧
    (b.direction = .orig → (s.line b.port).damaged = true → (s.line b.port).withdrawn = false → Holds s b.port e b →
      NotRinging s b.handle →
      exec (.answer tag (.handle h)) s =
        .next (callLineLost
          (answering s
            [.clear b.handle .storeFault b.meterCount, .ack tag .storeFault,
             .integrity .line b.port.val b.handle]) e b))

/-- METER raises the meter count in DIALLING, CONNECTED and CLEARING, and in the first two the pending pulses when the
record asks for pulses; a first pulse starts at once on a line that may take one (R137, R139, R140, R141). A damaged
record clears the call with STORE_FAULT instead, the raised count in its CLEAR and no pulses added (R139). -/
def Obligations.MeterCounts : Prop :=
  ∀ (s : State) (tag h n : Nat) (e : EntryNo) (b : Binding), Listening s → Quiet s → Named s h e b →
    1 ≤ n → n ≤ 15 →
    (b.phase = .clearing →
      exec (.meter tag (.handle h) n) s =
        .next (holding (answering s []) e (some { b with meterCount := min (b.meterCount + n) 65535 }))) ∧
    (b.phase = .dialling ∨ b.phase = .connected → (s.line b.port).damaged = true → (s.line b.port).withdrawn = false →
      Holds s b.port e b → NotRinging s b.handle →
      ∀ d : Binding, d = { b with meterCount := min (b.meterCount + n) 65535 } →
      exec (.meter tag (.handle h) n) s =
        .next (callLineLost
          (answering s
            [.clear b.handle .storeFault d.meterCount, .ack tag .storeFault,
             .integrity .line b.port.val b.handle]) e d)) ∧
    (b.phase = .dialling ∨ b.phase = .connected → Reads s b.port →
      ((s.line b.port).withdrawn = true ∨ (s.line b.port).meterPulse = false →
        exec (.meter tag (.handle h) n) s =
          .next (holding (answering s []) e (some { b with meterCount := min (b.meterCount + n) 65535 }))) ∧
      ((s.line b.port).withdrawn = false → (s.line b.port).meterPulse = true →
        ((s.port b.port).injector ≠ .idle ∨ (s.port b.port).hook = .on ∨ (s.port b.port).sup = .test →
          exec (.meter tag (.handle h) n) s =
            .next (holding (answering s []) e
              (some { b with
                meterCount := min (b.meterCount + n) 65535
                pendingPulses := min (b.pendingPulses + n) 255 }))) ∧
        ((s.port b.port).injector = .idle → (s.port b.port).hook = .off → (s.port b.port).sup ≠ .test →
          exec (.meter tag (.handle h) n) s =
            .next (porting
              (holding (answering s []) e
                (some { b with
                  meterCount := min (b.meterCount + n) 65535
                  pendingPulses := min (b.pendingPulses + n) 255 - 1 }))
              b.port { s.port b.port with injector := .pulse 120 }))))

/-! ## Retirement and CLEARING -/

/-- DENY, CLEAR, CLEARED and the expiry of T_release retire a binding normally: the count is folded, the slot goes back
or becomes BLOCKED, the entry is emptied, the port is settled by its hook, and OWQ service runs (R73, R85, R86, R89,
R143). CLEAR is answered CLEARED outside CLEARING, and takes a binding that waits to ring or rings out of the ringing
lists first, L falling by its load, and the budget pass runs before the rest (R118, R119, R129). A line record
that the fold finds damaged gets no fold: the port goes to QUARANTINE, and the report follows the event's own message
(R144, R179). That OWQ service then runs for a port that was waiting behind the binding, although the retirement itself
takes it out of the queue and its slot may go BLOCKED, is the model's reading of R89 step 8 and R98 against R105 (log
entry 31, DEDUCED). The slot record reads good throughout: one found damaged at its return (R52, R183) is not stated
here. Lines whose cease is deferred are in DeferredCeaseCompletes. -/
def Obligations.BindingsRetire : Prop :=
  (∀ (s : State) (e : EntryNo) (b : Binding), Quiet s → Named s b.handle e b → Retirable s b → ¬ Ceasing s b.port →
     NotRinging s b.handle →
     (∀ tag, Listening s → b.phase = .seizing →
       exec (.deny tag (.handle b.handle)) s = .next (served s b (retired (answering s []) e b))) ∧
     (∀ tag, Listening s → b.phase = .clearing →
       exec (.cleared tag (.handle b.handle)) s = .next (served s b (retired (answering s []) e b)) ∧
       ∀ c, exec (.clear tag (.handle b.handle) c) s = .next (served s b (retired (answering s []) e b))) ∧
     (∀ tag c, Listening s → b.phase ≠ .clearing →
       exec (.clear tag (.handle b.handle) c) s =
         .next (served s b (retired (answering s [.cleared tag b.handle b.meterCount]) e b))) ∧
     (b.phase = .clearing → b.tRelease.isSome = true →
       exec (.tReleaseExpiry b.handle) s =
         .next (served s b
           (retired
             { s with counters := { s.counters with releaseTimeouts := min (s.counters.releaseTimeouts + 1) 65535 } }
             e b)))) ∧
  (∀ (s : State) (e : EntryNo) (b : Binding), Quiet s → Named s b.handle e b → (s.slot b.slot).damaged = false →
     (s.line b.port).damaged = true → (s.line b.port).withdrawn = false →
     ∀ report : Message, report = .integrity .line b.port.val b.handle →
     (NotRinging s b.handle →
       (∀ tag, Listening s → b.phase = .seizing →
         exec (.deny tag (.handle b.handle)) s = .next (served s b (retiredLost (answering s [report]) e b))) ∧
       (∀ tag, Listening s → b.phase = .clearing →
         exec (.cleared tag (.handle b.handle)) s = .next (served s b (retiredLost (answering s [report]) e b)) ∧
         ∀ c, exec (.clear tag (.handle b.handle) c) s = .next (served s b (retiredLost (answering s [report]) e b))) ∧
       (b.phase = .clearing → b.tRelease.isSome = true →
         exec (.tReleaseExpiry b.handle) s =
           .next (served s b
             (retiredLost
               { telling s [report] with
                 counters := { s.counters with releaseTimeouts := min (s.counters.releaseTimeouts + 1) 65535 } }
               e b)))) ∧
     (∀ tag c, Listening s → b.phase ≠ .clearing → NotRinging s b.handle ∨ EntriesRead s →
       exec (.clear tag (.handle b.handle) c) s =
         .next (served s b
           (retiredLost
             (leftRinging (answering s [.cleared tag b.handle b.meterCount, report]) b.handle) e b)))) ∧
  ∀ (s : State) (tag c : Nat) (e : EntryNo) (b : Binding), Listening s → Quiet s → Named s b.handle e b →
    b.phase = .ringWait ∨ b.phase = .ringing → Retirable s b → ¬ Ceasing s b.port →
    ∀ t : State, t = unringing (answering s [.cleared tag b.handle b.meterCount]) b.handle →
    (LastToRing s b.handle → exec (.clear tag (.handle b.handle) c) s = .next (served s b (retired t e b))) ∧
    (¬ NotRinging s b.handle → EntriesRead s →
      exec (.clear tag (.handle b.handle) c) s = .next (served s b (retired t.budgetPass e b)))

/-- A deferred cease completes when the binding of its line retires: the fold is made, the record becomes VACANT with the
total kept, the key leaves the index, a waiting port leaves the queue, the port becomes VACANT (or stays TEST) and CEASED
tells the total after the event's own messages (R14, R15, R89 step 7). In a retirement by a binding failure the total
stays as stored (R90); a record that the CEASED read finds damaged is withdrawn instead, with the retiring binding's
handle in the report (R3, R15, log entry 16). Link loss and the warm reset complete it silently (R91, R92). -/
def Obligations.DeferredCeaseCompletes : Prop :=
  (∀ (s : State) (e : EntryNo) (b : Binding), Quiet s → Named s b.handle e b → Retirable s b → Ceasing s b.port →
     ∀ total, total = min ((s.line b.port).total + b.meterCount) 16777215 →
     ∀ told : Message, told = .ceased b.port (s.line b.port).key total →
     (NotRinging s b.handle →
       (∀ tag, Listening s → b.phase = .seizing →
         exec (.deny tag (.handle b.handle)) s =
           .next (served s b (ceased (retired (answering s [told]) e b) b.port total))) ∧
       (∀ tag, Listening s → b.phase = .clearing →
         exec (.cleared tag (.handle b.handle)) s =
           .next (served s b (ceased (retired (answering s [told]) e b) b.port total)) ∧
         ∀ c, exec (.clear tag (.handle b.handle) c) s =
           .next (served s b (ceased (retired (answering s [told]) e b) b.port total))) ∧
       (∀ tag c, Listening s → b.phase ≠ .clearing →
         exec (.clear tag (.handle b.handle) c) s =
           .next (served s b
             (ceased (retired (answering s [.cleared tag b.handle b.meterCount, told]) e b) b.port total))) ∧
       (b.phase = .clearing → b.tRelease.isSome = true →
         exec (.tReleaseExpiry b.handle) s =
           .next (served s b
             (ceased
               (retired
                 { telling s [told] with
                   counters := { s.counters with releaseTimeouts := min (s.counters.releaseTimeouts + 1) 65535 } }
                 e b) b.port total)))) ∧
     (b.phase = .ringWait ∨ b.phase = .ringing → ∀ tag c, Listening s →
       ∀ t : State, t = unringing (answering s [.cleared tag b.handle b.meterCount, told]) b.handle →
       (LastToRing s b.handle →
         exec (.clear tag (.handle b.handle) c) s =
           .next (served s b (ceased (retired t e b) b.port total))) ∧
       (¬ NotRinging s b.handle → EntriesRead s →
         exec (.clear tag (.handle b.handle) c) s =
           .next (served s b (ceased (retired t.budgetPass e b) b.port total))))) ∧
  (∀ (s : State) (tag : Nat) (e : EntryNo) (b : Binding), Listening s → Quiet s → NotRinging s b.handle →
     s.byHandle b.handle = some (e, b) → (s.entry e).damaged = true → (s.slot b.slot).damaged = false →
     Ceasing s b.port → s.waiting b.port = false →
     ∀ i : Instr, i ∈ [.grant tag (.handle b.handle), .deny tag (.handle b.handle), .answer tag (.handle b.handle),
         .clear tag (.handle b.handle) 0, .cleared tag (.handle b.handle), .meter tag (.handle b.handle) 1] →
       ((s.line b.port).damaged = false →
         exec i s =
           .next (ceased
             (bindingLost
               (faulted
                 (answering s
                   [.clear (s.slot b.slot).handle .storeFault b.meterCount, .ack tag .storeFault,
                    .integrity .binding e.val (s.slot b.slot).handle,
                    .ceased b.port (s.line b.port).key (s.line b.port).total]) 1) e b)
             b.port (s.line b.port).total)) ∧
       ((s.line b.port).damaged = true →
         exec i s =
           .next (quarantining
             (bindingLost
               (faulted
                 (answering s
                   [.clear (s.slot b.slot).handle .storeFault b.meterCount, .ack tag .storeFault,
                    .integrity .binding e.val (s.slot b.slot).handle,
                    .integrity .line b.port.val (s.slot b.slot).handle]) 1) e b) b.port))) ∧
  ∀ (s : State) (p : PortNo) (e : EntryNo) (b : Binding), InUse s p → Ceasing s p → OnlyCall s p e b →
    ∀ r : LineRecord, r = { LineRecord.initial with total := min ((s.line p).total + b.meterCount) 16777215 } →
    (∀ k, s.link = .up → s.lossHold = some k → (∀ h, s.bus = some h → h.port ≠ p) →
      ∃ t, exec .lossHoldExpiry s = .next t ∧ t.line p = r ∧ t.indexKey p = none ∧ t.out = s.out ∧
        t.port p = vacated (settled { s.port p with injector := .idle })) ∧
    (∀ tag, Listening s → Quiet s →
      ∃ t, exec (.resetCabinet tag) s = .next t ∧ t.line p = r ∧ t.indexKey p = none ∧
        t.port p = retiredVacant (s.port p)) ∧
    (s.resetLine = .released → s.storeClearing = false →
      ∃ t, exec .resetLineAsserted s = .next t ∧ t.line p = r ∧ t.indexKey p = none ∧ t.out = s.out ∧
        t.port p = retiredVacant (s.port p))

/-! ## Waiting for a slot -/

/-- OWQ service does nothing without a waiting port or a free slot, or when it passes over every entry: one whose port
holds a CLEARING binding, or whose class is not admitted (R99, R102). Else the oldest entry that is not passed over is
served on the slot at the pool head: it leaves the queue, a SEIZING binding is created, SEIZE is sent, and the scan starts
again at the head of the queue (R71, R98, R99, R101). A damaged line record or slot record met on the way is put out of
use and reported, and the scan goes on (R51, R100). -/
def Obligations.ServiceServes : Prop :=
  (∀ s : State,
     s.owq = [] ∨ s.pool = [] ∨ s.link ≠ .up ∨ (∀ w ∈ s.owq, PassedOver s w.port) → s.service = s) ∧
  ∀ (s : State) (passed rest : List PortNo) (p : PortNo) (n : SlotNo), Quiet s → s.link = .up →
    s.owq.map (·.port) = passed ++ p :: rest → (∀ q ∈ passed, PassedOver s q) → s.hasClearing p = false →
    s.pool.head? = some n →
    (∀ e, InUse s p → Admits s (s.line p).cls → (s.slot n).damaged = false → (s.port p).sup = .waitSlot →
      (s.entry e).binding = none → (∀ f : EntryNo, f < e → (s.entry f).binding ≠ none) →
      s.service =
        ({ s with
          owq := s.owq.filter fun w => !decide (w.port = p)
          pool := s.pool.filter fun m => !decide (m = n)
          slots := s.slots.set n
            { state := .bound, handle := s.chooseHandle, blockPending := false, damaged := false }
          entries := s.entries.set e
            { binding := some
                { handle := s.chooseHandle, port := p, slot := n, direction := .orig, phase := .seizing,
                  cadence := none, early := some [], meterCount := 0, pendingPulses := 0, reversal := false,
                  tAccept := some (s.params.tAccept * 1000), tRingwait := none, tRingmax := none, tRelease := none }
              damaged := false }
          nextHandle := if s.chooseHandle < 255 then s.chooseHandle + 1 else 1
          ports := s.ports.set p { s.port p with sup := .bound }
          out := { s.out with
            sent := s.out.sent ++ [.seize s.chooseHandle (n.val + 1) p (s.line p).key] } } : State).service) ∧
    ((s.line p).damaged = true → (s.line p).withdrawn = false → s.call p = none →
      s.service = (quarantining (telling s [.integrity .line p.val 0]) p).service) ∧
    (InUse s p → Admits s (s.line p).cls → (s.slot n).damaged = true →
      s.service = (slotLost (telling s [.integrity .slot (n.val + 1) 0]) n).service)

/-! ## Slots -/

/-- BLOCK_SLOT and UNBLOCK_SLOT by the state of the slot (R56, R57): a SUSPECT slot, and for an unblock a BLOCKED one, is
rewritten without being read; an unblocked slot joins the pool tail and OWQ service runs. A record found damaged outside
a call becomes SUSPECT and leaves the pool, the fault is counted, and STORE_FAULT is answered before the INTEGRITY report
(R59, R183). -/
def Obligations.SlotsAreBlocked : Prop :=
  (∀ (s : State) (tag : Nat), Listening s → Quiet s →
     (∀ v, v < 1 ∨ 15 < v →
       exec (.blockSlot tag v) s = .next (answering s [.ack tag .badValue]) ∧
       exec (.unblockSlot tag v) s = .next (answering s [.ack tag .badValue])) ∧
     ∀ n : SlotNo,
       ((s.slot n).state = .free → (s.slot n).damaged = false →
         exec (.blockSlot tag (n.val + 1)) s =
           .next { slotting (answering s [.ack tag .ok]) n .blocked 0 false with
             pool := s.pool.filter fun m => !decide (m = n) } ∧
         exec (.unblockSlot tag (n.val + 1)) s = .next (answering s [.ack tag .ok])) ∧
       ((s.slot n).state = .bound → (s.slot n).damaged = false →
         exec (.blockSlot tag (n.val + 1)) s =
           .next (slotting (answering s [.ack tag .blockPending]) n .bound (s.slot n).handle true) ∧
         exec (.unblockSlot tag (n.val + 1)) s =
           .next (slotting (answering s [.ack tag .ok]) n .bound (s.slot n).handle false)) ∧
       ((s.slot n).state = .blocked → (s.slot n).damaged = false →
         exec (.blockSlot tag (n.val + 1)) s = .next (answering s [.ack tag .ok])) ∧
       ((s.slot n).state = .suspect →
         exec (.blockSlot tag (n.val + 1)) s =
           .next (slotting (answering s [.ack tag .ok]) n .blocked 0 false)) ∧
       ((s.slot n).state = .blocked ∨ (s.slot n).state = .suspect →
         exec (.unblockSlot tag (n.val + 1)) s =
           .next ({ slotting (answering s [.ack tag .ok]) n .free 0 false with
             pool := s.pool ++ [n] } : State).service)) ∧
  ∀ (s : State) (tag : Nat) (n : SlotNo), Listening s → Quiet s → (s.slot n).damaged = true →
    ((s.slot n).state = .free ∨ (s.slot n).state = .blocked →
      exec (.blockSlot tag (n.val + 1)) s =
        .next { slotting (answering s [.ack tag .storeFault, .integrity .slot (n.val + 1) 0]) n .suspect 0 false with
          pool := s.pool.filter fun m => !decide (m = n)
          counters := { s.counters with integrityFaults := min (s.counters.integrityFaults + 1) 65535 } }) ∧
    ((s.slot n).state = .free →
      exec (.unblockSlot tag (n.val + 1)) s =
        .next { slotting (answering s [.ack tag .storeFault, .integrity .slot (n.val + 1) 0]) n .suspect 0 false with
          pool := s.pool.filter fun m => !decide (m = n)
          counters := { s.counters with integrityFaults := min (s.counters.integrityFaults + 1) 65535 } })

/-- QUERY_SLOTS of good records: two SLOT_LISTs, one directly after the other, the first with F, R, the pool order and
slots 1 to 7, the second with slots 8 to 15, each slot with the port its voice path is connected to, none unless it is
BOUND (R55, R61, R62). Damaged records are put out of use one after the other, and the reply is STORE_FAULT with the
INTEGRITY reports after it; one of a BOUND slot ends its call as the read of a BLOCK_SLOT does (R61, R178, R183). -/
def Obligations.QuerySlotsReplies : Prop :=
  (∀ (s : State) (n : SlotNo) (e : EntryNo) (b : Binding), s.byHandle (s.slot n).handle = some (e, b) →
    s.connected n =
      if (s.slot n).state = .bound ∧ (b.phase = .dialling ∨ b.phase = .connected) then some b.port else none) ∧
  (∀ (s : State) (n : SlotNo), (s.slot n).state ≠ .bound → s.connected n = none) ∧
  (∀ (s : State) (tag : Nat), Listening s → Quiet s → (∃ n, (s.slot n).damaged = true) →
    (∀ n, (s.slot n).damaged = true → (s.slot n).state ≠ .bound) →
    ∀ found : List SlotNo, found = (List.finRange 15).filter (fun n => (s.slot n).damaged) →
    exec (.querySlots tag) s =
      .next { faulted (answering s (.ack tag .storeFault :: found.map fun n => .integrity .slot (n.val + 1) 0))
          found.length with
        slots := s.slots.map fun r =>
          if r.damaged = true then { state := .suspect, handle := 0, blockPending := false, damaged := false } else r
        pool := s.pool.filter fun n => !(s.slot n).damaged }) ∧
  (∀ (s : State) (tag : Nat) (n : SlotNo), Listening s → Quiet s → (∀ m, (s.slot m).damaged = true ↔ m = n) →
    (s.slot n).state = .bound → exec (.querySlots tag) s = exec (.blockSlot tag (n.val + 1)) s) ∧
  ∀ (s : State) (tag : Nat), Listening s → Quiet s → (∀ n, (s.slot n).damaged = false) →
    exec (.querySlots tag) s =
      .next (answering s
        [.slotList tag 1
          (some { free := s.pool.length, reserve := s.params.reserve, order := s.pool.map fun n => n.val + 1 })
          (([0, 1, 2, 3, 4, 5, 6] : List SlotNo).map fun n =>
            { number := n.val + 1, state := (s.slot n).state, handle := (s.slot n).handle,
              blockPending := (s.slot n).blockPending, connected := s.connected n }),
         .slotList tag 2 none
          (([7, 8, 9, 10, 11, 12, 13, 14] : List SlotNo).map fun n =>
            { number := n.val + 1, state := (s.slot n).state, handle := (s.slot n).handle,
              blockPending := (s.slot n).blockPending, connected := s.connected n })])

/-! ## Test access -/

/-- TEST_CONNECT (R167 to R169): a port already on the bus restarts T_test, another port finds the bus busy, a BOUND port
needs force; a port that is not BOUND is connected, its latch kept as it was, a waiting port leaving the queue; with
force the binding enters CLEARING with cause TEST, and the budget pass runs when it was ringing or waiting to ring
(R129). -/
def Obligations.TestConnects : Prop :=
  ∀ (s : State) (tag : Nat) (a : Address) (p : PortNo) (f : Bool), Listening s → Quiet s → s.resolve a = .port p →
    a ≠ .cursor →
    (∀ h, s.bus = some h → h.port = p →
      exec (.testConnect tag a f) s =
        .next { answering s [.ack tag .ok] with bus := some { port := p, left := s.params.tTest * 60000 } }) ∧
    (∀ h, s.bus = some h → h.port ≠ p →
      exec (.testConnect tag a f) s = .next (answering s [.ack tag .busBusy])) ∧
    (s.bus = none → (s.port p).sup = .bound → f = false →
      exec (.testConnect tag a f) s = .next (answering s [.ack tag .lineBusy])) ∧
    (s.bus = none → (s.port p).sup ≠ .bound →
      exec (.testConnect tag a f) s =
        .next { answering s [.ack tag .ok] with
          bus := some { port := p, left := s.params.tTest * 60000 }
          owq := s.owq.filter fun w => !decide (w.port = p)
          ports := s.ports.set p
            { s.port p with
              sup := .test
              testLatch := s.latch p
              classifier := if (s.port p).sup = .vacant ∨ (s.port p).sup = .parked then
                  (if (s.port p).lineClosed = true then .closure 0 else .atRest)
                else (s.port p).classifier } }) ∧
    (∀ e b, s.bus = none → (s.port p).sup = .bound → f = true → Holds s p e b → LastToRing s b.handle →
      exec (.testConnect tag a f) s =
        .next { holding
            (unringing (answering s [.clear b.handle .test b.meterCount, .ack tag .ok]) b.handle) e
            (some (inClearing s b)) with
          bus := some { port := p, left := s.params.tTest * 60000 }
          ports := s.ports.set p { s.port p with sup := .test, testLatch := s.latch p, injector := .idle } }) ∧
    (∀ e b, s.bus = none → (s.port p).sup = .bound → f = true → Holds s p e b → NotRinging s b.handle →
      exec (.testConnect tag a f) s =
        .next { holding (answering s [.clear b.handle .test b.meterCount, .ack tag .ok]) e (some (inClearing s b)) with
          bus := some { port := p, left := s.params.tTest * 60000 }
          ports := s.ports.set p { s.port p with sup := .test, testLatch := s.latch p, injector := .idle } }) ∧
    (∀ e b, s.bus = none → (s.port p).sup = .bound → f = true → Holds s p e b → ¬ NotRinging s b.handle →
      EntriesRead s →
      exec (.testConnect tag a f) s =
        .next ({ holding
            (unringing (answering s [.clear b.handle .test b.meterCount, .ack tag .ok]) b.handle) e
            (some (inClearing s b)) with
          bus := some { port := p, left := s.params.tTest * 60000 }
          ports := s.ports.set p { s.port p with sup := .test, testLatch := s.latch p, injector := .idle } } :
          State).budgetPass)

/-- TEST_RELEASE and the expiry of T_test free the bus and put the port where its record, the power state and its hook
say (R172 to R174). A withdrawn record is placed before the VACANT row is looked at: the model's reading (log entry
12). A record that the release finds damaged puts the port in QUARANTINE, with STORE_FAULT or TEST_ENDED before the
INTEGRITY report. -/
def Obligations.TestReleases : Prop :=
  (∀ (s : State) (p : PortNo), Quiet s → Reads s p →
    (∀ tag a, Listening s → s.resolve a = .port p → a ≠ .cursor →
      ((s.port p).sup = .test →
        exec (.testRelease tag a) s =
          .next { answering s [.ack tag .ok] with bus := none, ports := s.ports.set p (released s p) }) ∧
      ((s.port p).sup ≠ .test → exec (.testRelease tag a) s = .next (answering s [.ack tag .wrongPhase]))) ∧
    (∀ left, s.bus = some { port := p, left := left } → (s.port p).sup = .test →
      exec .tTestExpiry s =
        .next (telling { s with bus := none, ports := s.ports.set p (released s p) }
          [.testEnded p (released s p).sup]))) ∧
  ∀ (s : State) (p : PortNo), Quiet s → (s.line p).damaged = true → (s.line p).withdrawn = false →
    (s.port p).sup = .test → (∀ e b, s.call p = some (e, b) → b.phase = .clearing) →
    ∀ q : Port, q = { s.port p with sup := .quarantine, parkPending := false } →
    (∀ tag a, Listening s → s.resolve a = .port p → a ≠ .cursor →
      exec (.testRelease tag a) s =
        .next { quarantining (answering s [.ack tag .storeFault, .integrity .line p.val 0]) p with
          bus := none, ports := s.ports.set p q }) ∧
    (∀ left, s.bus = some { port := p, left := left } →
      exec .tTestExpiry s =
        .next (telling { quarantining s p with bus := none, ports := s.ports.set p q }
          [.testEnded p .quarantine, .integrity .line p.val 0]))

/-! ## Ringing and the ringing budget -/

/-- SET_CADENCE and READ_CADENCE (R113, R115): the checks in order, each duration clamped to 1 to 100, and the budget as
it stands. SEGMENT_END takes a ringing binding to its next segment, and to segment 0 at or beyond the count of its cadence
as the table holds it, with that segment's full duration (R112, R114). -/
def Obligations.CadencesRun : Prop :=
  (∀ (s : State) (tag : Nat), Listening s → Quiet s →
     (∀ n ds, s.engine ≠ .idle → exec (.setCadence tag n ds) s = .next (answering s [.ack tag .busy])) ∧
     (∀ n ds, s.engine = .idle → 4 ≤ n ∨ ds.length ∉ [2, 4, 6] →
       exec (.setCadence tag n ds) s = .next (answering s [.ack tag .badValue])) ∧
     (∀ (n : CadenceNo) ds, s.engine = .idle → ds.length ∈ [2, 4, 6] →
       exec (.setCadence tag n.val ds) s =
         .next { answering s [.ack tag (if ∀ d ∈ ds, 1 ≤ d ∧ d ≤ 100 then .ok else .clamped)] with
           cadences := s.cadences.set n (ds.map fun d => max 1 (min d 100)) }) ∧
     (∀ n, 4 ≤ n → exec (.readCadence tag n) s = .next (answering s [.ack tag .badValue])) ∧
     (∀ n : CadenceNo,
       exec (.readCadence tag n.val) s =
         .next (answering s
           [.cadenceData tag
             { cadence := n, durations := s.cadences[n], g := s.params.g, available := s.available,
               committed := s.committed, queue := s.ringQueue.map (·.handle),
               ringing := s.ringList.map fun r => (r.handle, r.segment) }]))) ∧
  ∀ (s : State) (h : Nat),
    exec (.segmentEnd h) s =
      .next { s with
        ringList := s.ringList.map fun r =>
          if r.handle = h then
            let i := if (s.cadences[r.cadence]).length ≤ r.segment + 1 then 0 else r.segment + 1
            { r with segment := i, left := (s.cadences[r.cadence])[i]?.getD 0 * 50 }
          else r }

/-- The drive latch, the applied drive and the congestion tone (R25, R26, R27); a ringing line's latch is RING_ON in even
segments and FEED_NORMAL in odd ones (R111, R112). In TEST the latch is the one kept on entry, whatever becomes of the
binding, the record and the power state. -/
def Obligations.DriveFollows : Prop :=
  (∀ (s : State) (p : PortNo),
     ((s.port p).sup = .vacant ∨ (s.port p).sup = .parked → s.latch p = .feedOff) ∧
     ((s.port p).sup ∈ [SupState.idle, .waitSlot, .lockout, .quarantine] → s.latch p = .feedNormal) ∧
     ((s.port p).sup ≠ .test → s.applied p = s.latch p) ∧
     ((s.port p).sup = .test →
       s.applied p = .testHeld ∧ s.latch p = (s.port p).testLatch ∧
       ∀ t : State, t.port p = s.port p → t.latch p = s.latch p) ∧
     (∀ e b, (s.port p).sup = .bound → s.call p = some (e, b) →
       (b.phase = .connected → s.latch p = if b.reversal = true then .feedReversed else .feedNormal) ∧
       (b.phase ∈ [Phase.seizing, .dialling, .ringWait] → s.latch p = .feedNormal)) ∧
     (s.tone p = true ↔ (s.port p).sup = .lockout ∧ s.params.tone = true ∧ s.sense.power = .normal)) ∧
  ∀ (s : State) (p : PortNo) (e : EntryNo) (b : Binding) (r : RingEntry), (s.port p).sup = .bound →
    s.call p = some (e, b) → b.phase = .ringing → s.ringList.find? (fun x => decide (x.handle = b.handle)) = some r →
    s.latch p = if r.segment % 2 = 0 then .ringOn else .feedNormal

/-- The capacity A and the band from the held readings and the parameters, each reading taken as R120 says: no capacity
without a battery reading, B_full for a disabled battery channel, COOL for a temperature that is disabled or none yet
(R120, R121). -/
def Obligations.CapacityIsDerated : Prop :=
  ∀ s : State, ParamsOrdered s →
    (s.params.battery = true → s.sense.heldB = none → s.capacity = 0) ∧
    ∀ b : Nat, (s.params.battery = true ∧ s.sense.heldB = some b) ∨ (s.params.battery = false ∧ b = s.params.bFull) →
      let w := s.params.bFull - s.params.bCut
      let m := if b ≤ s.params.bCut then 0 else if s.params.bFull ≤ b then w else b - s.params.bCut
      (s.params.temperature = false ∨ s.sense.heldT = none → s.bandNow = .cool ∧ s.capacity = s.params.g * m / w) ∧
      (∀ t : Int, s.params.temperature = true → s.sense.heldT = some t →
        (t < s.params.tHot → s.bandNow = .cool ∧ s.capacity = s.params.g * m / w) ∧
        (s.params.tHot ≤ t → t < s.params.tTrip →
          s.bandNow = .hot ∧
          (s.capacity : Int) =
            (s.params.g * m / w : Nat) * (s.params.tTrip - t) / (s.params.tTrip - s.params.tHot : Nat)) ∧
        (s.params.tTrip ≤ t → s.bandNow = .trip ∧ s.capacity = 0)) ∧
      s.capacity ≤ s.params.g

/-- One move of the budget pass at a time (R124 to R128): while L stands above A the newest ringer is shed to the head of
the queue with a new T_ringwait, all of them at A = 0 and down to a lone ringer otherwise; then the head starts when it
fits, or alone when nothing rings; when neither applies the pass is over. That a pass in which a damaged entry is met after
a shed may start the shed binding again is the model's reading (log entry 15). -/
def Obligations.BudgetPassMoves : Prop :=
  ∀ s : State,
    (∀ r e b, s.available < s.committed → s.available = 0 ∨ 1 < s.ringList.length → s.ringList.getLast? = some r →
      Named s r.handle e b →
      s.budgetPass =
        ({ s with
          ringList := s.ringList.filter fun x => !decide (x.handle = r.handle)
          committed := s.committed - ((s.ringList.filter fun x => decide (x.handle = r.handle)).map (·.load)).sum
          ringQueue := { handle := r.handle, port := r.port, cadence := r.cadence, load := r.load } :: s.ringQueue
          counters := { s.counters with ringSheds := min (s.counters.ringSheds + 1) 65535 }
          entries := s.entries.set e
            { binding := some { b with phase := .ringWait, tRingwait := some (s.params.tRingwait * 1000) }
              damaged := false } } : State).budgetPass) ∧
    (∀ q e b, s.committed ≤ s.available → s.ringQueue.head? = some q → s.committed + q.load ≤ s.available →
      Named s q.handle e b →
      s.budgetPass =
        ({ s with
          ringQueue := s.ringQueue.filter fun x => !decide (x.handle = q.handle)
          ringList := s.ringList ++
            [{ handle := q.handle, port := q.port, cadence := q.cadence, load := q.load, segment := 0
               left := (s.cadences[q.cadence])[0]?.getD 0 * 50 }]
          committed := s.committed + q.load
          entries := s.entries.set e
            { binding := some { b with phase := .ringing, tRingwait := none }, damaged := false } } :
          State).budgetPass) ∧
    (∀ q e b, s.ringList = [] → s.committed = 0 → 0 < s.available → s.ringQueue.head? = some q →
      s.available < q.load → Named s q.handle e b →
      s.budgetPass =
        ({ s with
          ringQueue := s.ringQueue.filter fun x => !decide (x.handle = q.handle)
          ringList :=
            [{ handle := q.handle, port := q.port, cadence := q.cadence, load := q.load, segment := 0
               left := (s.cadences[q.cadence])[0]?.getD 0 * 50 }]
          committed := q.load
          entries := s.entries.set e
            { binding := some { b with phase := .ringing, tRingwait := none }, damaged := false } } :
          State).budgetPass) ∧
    (s.committed ≤ s.available ∨ (s.available ≠ 0 ∧ s.ringList.length ≤ 1) →
      (∀ q, s.ringQueue.head? = some q →
        s.available < s.committed + q.load ∧ (s.committed ≠ 0 ∨ s.available = 0)) →
      s.budgetPass = s)

/-! ## Parameters, counters and the state of a line -/

/-- SET_PARAM: the checks of R201 in order, the clamp to the range, the store and the ACK, which is the first message of
the event; a parameter that is read only at a later event changes nothing else (R202). Setting one parameter leaves the
others. -/
def Obligations.SetParamStores : Prop :=
  (∀ (q : Params) (i j : Fin 17) (v : Nat), v ≤ paramTable[i].2.2 →
    (q.set paramTable[i].1 v).get paramTable[j].1 = if j = i then v else q.get paramTable[j].1) ∧
  ∀ (s : State) (tag value : Nat), Listening s → Quiet s → ParamsOrdered s →
    (∀ n, s.engine ≠ .idle → exec (.setParam tag n value) s = .next (answering s [.ack tag .busy])) ∧
    (∀ n, s.engine = .idle → 17 ≤ n → exec (.setParam tag n value) s = .next (answering s [.ack tag .badValue])) ∧
    ∀ i : Fin 17, s.engine = .idle →
      (¬ InOrder (stored s i value) →
        exec (.setParam tag i.val value) s = .next (answering s [.ack tag .badValue])) ∧
      (InOrder (stored s i value) →
        ∃ t, exec (.setParam tag i.val value) s = .next t ∧ t.params = stored s i value ∧
          s.out.sent ++ [storedAck tag i value] <+: t.out.sent) ∧
      (InOrder (stored s i value) → i.val ∈ [3, 4, 8, 9, 10, 11, 12, 13, 14] →
        exec (.setParam tag i.val value) s =
          .next { answering s [storedAck tag i value] with params := stored s i value })

/-- The parameters that act at once (R54, R122, R152, R153, R158, R160, R202): G, B_full, B_cut and the channel flags
recompute A and run the budget pass; T_hot, T_trip and the temperature flag also evaluate the band, with a POWER report
when it changed; a lower R runs OWQ service; a channel flag clears its run count and fault when it changed; disabling the
battery makes the power state NORMAL. Below, `r` is the state with the value stored and the ACK sent. -/
def Obligations.SetParamActs : Prop :=
  ∀ (s : State) (tag value : Nat) (i : Fin 17), Listening s → Quiet s → s.engine = .idle →
    InOrder (stored s i value) →
    ∀ r : State, r = { answering s [storedAck tag i value] with params := stored s i value } →
    (i.val ∈ [0, 1, 2] →
      exec (.setParam tag i.val value) s = .next ({ r with available := r.capacity } : State).budgetPass) ∧
    (i.val ∈ [5, 6, 16] →
      ∀ q : Sense,
        q = (if r.params.temperature = s.params.temperature then s.sense
             else { s.sense with runT := 0, faultT := false }) →
      ∀ u : State, u = ({ r with sense := q, available := r.capacity } : State).budgetPass →
      exec (.setParam tag i.val value) s =
        .next (telling { u with sense := { q with band := r.bandNow } }
          (if r.bandNow = s.sense.band then []
           else [.power s.sense.power r.bandNow s.sense.heldB s.sense.heldT]))) ∧
    (i.val = 7 →
      exec (.setParam tag i.val value) s =
        .next (if r.params.reserve < s.params.reserve then r.service else r)) ∧
    (i.val = 15 →
      ∀ q : Sense,
        q = (if r.params.battery = s.params.battery then s.sense
             else { s.sense with runB := 0, faultB := false }) →
      (s.sense.power = .normal ∨ s.params.battery = false ∨ r.params.battery = true →
        exec (.setParam tag i.val value) s =
          .next ({ r with sense := q, available := r.capacity } : State).budgetPass) ∧
      (s.sense.power ≠ .normal → s.params.battery = true → r.params.battery = false →
        ∀ u : State, u = ({ r with sense := q, available := r.capacity } : State).budgetPass →
        exec (.setParam tag i.val value) s =
          .next (telling
            { u with
              sense := { q with power := .normal }
              ports := if s.sense.power = .survival then Vector.ofFn fun p => unscanned (u.port p) else u.ports }
            [.power .normal s.sense.band s.sense.heldB s.sense.heldT])))

/-- READ_PARAM, READ_COUNTERS and QUERY_LINE (R203, R205, R46). The values leave in the order of their tables, two octets
each. -/
def Obligations.StateIsReported : Prop :=
  (∀ tag (q : Params), (Message.paramData tag q).parts =
    (38, tag,
      [q.g, q.bFull, q.bCut, q.bConserve, q.bSurvive, q.tHot, q.tTrip, q.reserve, q.tAccept, q.tWait, q.tRingwait,
        q.tRingmax, q.tRelease, q.tTest, if q.tone = true then 1 else 0, if q.battery = true then 1 else 0,
        if q.temperature = true then 1 else 0].flatMap fun v => [v / 256, v % 256])) ∧
  (∀ tag (c : Counters), (Message.counterData tag c).parts =
    (39, tag,
      [c.attempted, c.queued, c.waitTimeouts, c.abandons, c.noSlot, c.ringSheds, c.ringwaitTimeouts, c.releaseTimeouts,
        c.earlyOverflows, c.badFrames, c.integrityFaults].flatMap fun v => [v / 256, v % 256])) ∧
  ∀ (s : State) (tag : Nat), Listening s → Quiet s →
    exec (.readParam tag) s = .next (answering s [.paramData tag s.params]) ∧
    exec (.readCounters tag false) s = .next (answering s [.counterData tag s.counters]) ∧
    exec (.readCounters tag true) s =
      .next { answering s [.counterData tag s.counters] with counters := Counters.zero } ∧
    ∀ a p, s.resolve a = .port p → a ≠ .cursor → Reads s p →
      exec (.queryLine tag a) s =
        .next (answering s
          [.lineState tag
            { port := p, sup := (s.port p).sup
              hook := if (s.port p).sup = .vacant ∨ (s.port p).sup = .parked then .on else (s.port p).hook
              parkPending := (s.port p).parkPending, latch := s.latch p, applied := s.applied p, tone := s.tone p
              call := match s.call p with
                | some (_, b) => (b.handle, some b.phase)
                | none => (0, none)
              status := if (s.line p).withdrawn = true then none else some (s.line p).status }])

/-! ## Cabinet power and climate -/

/-- An invalid reading keeps the held value, raises the run count to at most 5 and reports a fault once, when the count
reaches 5 (R150); a reading of a disabled channel, and any reading during store clear, changes nothing (R148, R164). -/
def Obligations.InvalidReadings : Prop :=
  ∀ s : State, Quiet s → s.storeClearing = false →
    (∀ v : Option Int, s.params.battery = true → (∀ x ∈ v, x < 200 ∨ 700 < x) →
      exec (.senseReading .battery v) s =
        .next (telling
          { s with sense := { s.sense with
              runB := min (s.sense.runB + 1) 5
              faultB := s.sense.faultB || decide (4 ≤ s.sense.runB) } }
          (if 4 ≤ s.sense.runB ∧ s.sense.faultB = false then [.sense .battery .fault] else []))) ∧
    (∀ v : Option Int, s.params.temperature = true → (∀ x ∈ v, x < -50 ∨ 100 < x) →
      exec (.senseReading .temperature v) s =
        .next (telling
          { s with sense := { s.sense with
              runT := min (s.sense.runT + 1) 5
              faultT := s.sense.faultT || decide (4 ≤ s.sense.runT) } }
          (if 4 ≤ s.sense.runT ∧ s.sense.faultT = false then [.sense .temperature .fault] else []))) ∧
    (∀ v, s.params.battery = false → exec (.senseReading .battery v) s = .next s) ∧
    (∀ v, s.params.temperature = false → exec (.senseReading .temperature v) s = .next s) ∧
    (∀ c v left, exec (.senseReading c v) { s with engine := .storeClear left } =
      .next { s with engine := .storeClear left })

/-- A valid reading, its steps in order: the value is held, the run count and the fault clear (with SENSE(OK) when a fault
was set), A is recomputed and the budget pass runs, the power state or the band is evaluated, and a POWER report follows
a change of either (R121, R122, R149, R153, R154, R160). Crossings of SURVIVAL are in SurvivalParks. -/
def Obligations.ValidReadings : Prop :=
  ∀ s : State, Quiet s → s.storeClearing = false → ParamsOrdered s →
    (∀ b : Nat, s.params.battery = true → 200 ≤ b → b ≤ 700 →
      (powerAfter s.params s.sense.power b = .survival ↔ s.sense.power = .survival) →
      ∀ q : Sense, q = { s.sense with heldB := some b, runB := 0, faultB := false } →
      ∀ u : State, u = ({ telling s (if s.sense.faultB = true then [.sense .battery .ok] else []) with
        sense := q, available := ({ s with sense := q } : State).capacity } : State).budgetPass →
      exec (.senseReading .battery (some b)) s =
        .next (telling { u with sense := { q with power := powerAfter s.params s.sense.power b } }
          (if powerAfter s.params s.sense.power b = s.sense.power then []
           else [.power (powerAfter s.params s.sense.power b) s.sense.band (some b) s.sense.heldT]))) ∧
    (∀ v : Int, s.params.temperature = true → -50 ≤ v → v ≤ 100 →
      ∀ q : Sense, q = { s.sense with heldT := some v, runT := 0, faultT := false } →
      ∀ u : State, u = ({ telling s (if s.sense.faultT = true then [.sense .temperature .ok] else []) with
        sense := q, available := ({ s with sense := q } : State).capacity } : State).budgetPass →
      exec (.senseReading .temperature (some v)) s =
        .next (telling { u with sense := { q with band := ({ s with sense := q } : State).bandNow } }
          (if ({ s with sense := q } : State).bandNow = s.sense.band then []
           else [.power s.sense.power ({ s with sense := q } : State).bandNow s.sense.heldB (some v)])))

/-- A battery reading that takes the cabinet into SURVIVAL runs the budget pass and then parks or marks every parkable
port; one that takes it out unparks every PARKED port and clears every marker (R149, R154, R156, R158, R160). A record of
status VACANT is not in use (log entry 34). Records that the scan finds damaged send their ports to QUARANTINE, and a call
outside CLEARING is cleared; their messages leave in port order, before POWER (R157). -/
def Obligations.SurvivalParks : Prop :=
  ∀ (s : State) (b : Nat), Quiet s → s.storeClearing = false → ParamsOrdered s → s.params.battery = true →
    200 ≤ b → b ≤ 700 →
    ∀ q : Sense, q = { s.sense with heldB := some b, runB := 0, faultB := false } →
    ∀ u : State, u = ({ telling s (if s.sense.faultB = true then [.sense .battery .ok] else []) with
      sense := q, available := ({ s with sense := q } : State).capacity } : State).budgetPass →
    (s.sense.power ≠ .survival → powerAfter s.params s.sense.power b = .survival →
      (s.ringQueue = [] ∧ s.ringList = []) ∨ EntriesRead s →
      ∀ report : Message, report = .power .survival s.sense.band (some b) s.sense.heldT →
      ((∀ p, Reads s p ∨ (s.port p).sup = .vacant) →
        exec (.senseReading .battery (some b)) s =
          .next (telling
            { u with
              sense := { q with power := .survival }
              ports := Vector.ofFn fun p => scanned s p } [report])) ∧
      ((∀ p, ScanFinds s p → ∀ e c, s.call p = some (e, c) → c.phase = .clearing ∧ NotRinging s c.handle) →
        ∀ found : List PortNo, found = (List.finRange 48).filter (fun p => decide (ScanFinds s p)) → found ≠ [] →
        exec (.senseReading .battery (some b)) s =
          .next (telling
            { faulted u found.length with
              sense := { q with power := .survival }
              lines := Vector.ofFn fun p => if ScanFinds s p then { s.line p with withdrawn := true } else s.line p
              keyIndex := Vector.ofFn fun p => if ScanFinds s p then none else s.indexKey p
              owq := s.owq.filter fun w => !decide (ScanFinds s w.port)
              ports := Vector.ofFn fun p => if ScanFinds s p then quarantined (s.port p) else scanned s p }
            ((found.map fun p => .integrity .line p.val 0) ++ [report]))) ∧
      (∀ p e c, (∀ r, ScanFinds s r ↔ r = p) → Holds u p e c → c.phase ≠ .clearing →
        NotRinging u c.handle ∨ EntriesRead s →
        exec (.senseReading .battery (some b)) s =
          .next (telling
            { callLineLost (leftRinging u c.handle) e c with
              sense := { q with power := .survival }
              ports := Vector.ofFn fun r =>
                if r = p then quarantined { s.port p with injector := .idle } else scanned s r }
            [.clear c.handle .storeFault c.meterCount, .integrity .line p.val c.handle, report]))) ∧
    (s.sense.power = .survival → powerAfter s.params s.sense.power b ≠ .survival →
      exec (.senseReading .battery (some b)) s =
        .next (telling
          { u with
            sense := { q with power := powerAfter s.params s.sense.power b }
            ports := Vector.ofFn fun p => unscanned (u.port p) }
          [.power (powerAfter s.params s.sense.power b) s.sense.band (some b) s.sense.heldT]))

/-! ## The line side -/

/-- A loop closes or opens on a port that is fed (R30, R32, R35): a closure starts from hook ON; a break ends as a glitch,
a dial pulse, a flash or (from 900 ms) an on-hook by its length; an open loop ends a closure unheard, or starts a break
with the make timer standing still; a flash in SEIZING takes its places in the early list (R36). On a port that is not fed
nothing is timed (R24, R31). `ms` is what the clock has not counted of the break (log entry 4); a report that repeats the
line's condition, and the condition of an unfed port, are the model's reading (log entry 5). -/
def Obligations.LoopReports : Prop :=
  ∀ (s : State) (p : PortNo), Quiet s → s.storeClearing = false →
    ((s.port p).lineClosed = true → ∀ ms, exec (.loopClosed p ms) s = .next s) ∧
    ((s.port p).lineClosed = false → exec (.loopOpen p) s = .next s) ∧
    ((s.port p).sup = .vacant ∨ (s.port p).sup = .parked →
      (∀ ms, exec (.loopClosed p ms) s = .next (porting s p { s.port p with lineClosed := true })) ∧
      exec (.loopOpen p) s = .next (porting s p { s.port p with lineClosed := false })) ∧
    ((s.port p).sup ≠ .vacant → (s.port p).sup ≠ .parked →
      ((s.port p).lineClosed = false →
        ((s.port p).classifier = .atRest → (s.port p).hook = .on → ∀ ms,
          exec (.loopClosed p ms) s =
            .next (porting s p { s.port p with lineClosed := true, classifier := .closure 0 })) ∧
        (∀ n ms, (s.port p).classifier = .breaking n →
          (n + ms < 15 →
            exec (.loopClosed p ms) s =
              .next (porting s p { s.port p with lineClosed := true, classifier := .make })) ∧
          (15 ≤ n + ms → n + ms < 120 →
            exec (.loopClosed p ms) s =
              .next (porting s p
                { s.port p with
                  lineClosed := true, classifier := .make, pulses := min ((s.port p).pulses + 1) 11
                  makeTimer := some 0 })) ∧
          (120 ≤ n + ms → n + ms < 900 →
            ((s.port p).sup ≠ .bound →
              exec (.loopClosed p ms) s =
                .next (porting s p (declared { s.port p with lineClosed := true } (s.port p).hook .make))) ∧
            (∀ e b, (s.port p).sup = .bound → Holds s p e b → b.phase = .dialling ∨ b.phase = .connected →
              exec (.loopClosed p ms) s =
                .next (telling
                  (porting s p (declared { s.port p with lineClosed := true } (s.port p).hook .make))
                  ((if 1 ≤ (s.port p).pulses then [.digit b.handle .bad] else []) ++ [.flash b.handle]))) ∧
            (∀ e b, (s.port p).sup = .bound → Holds s p e b → b.phase = .clearing →
              exec (.loopClosed p ms) s =
                .next (porting s p (declared { s.port p with lineClosed := true } (s.port p).hook .make))) ∧
            (∀ e b, (s.port p).sup = .bound → Holds s p e b → b.phase = .seizing →
              ∀ t : State, t = porting s p (declared { s.port p with lineClosed := true } (s.port p).hook .make) →
              ∀ dialled : List Dialled,
                dialled = (if 1 ≤ (s.port p).pulses then [.digit .bad, .flash] else [.flash]) →
              ((b.early.getD []).length + dialled.length ≤ 4 →
                exec (.loopClosed p ms) s =
                  .next (holding t e (some { b with early := some (b.early.getD [] ++ dialled) }))) ∧
              ((b.early.getD []).length = 3 → 1 ≤ (s.port p).pulses →
                exec (.loopClosed p ms) s =
                  .next { holding t e (some { b with early := some (b.early.getD [] ++ [.digit .bad]) }) with
                    counters := { s.counters with earlyOverflows := min (s.counters.earlyOverflows + 1) 65535 } }) ∧
              (4 ≤ (b.early.getD []).length →
                exec (.loopClosed p ms) s =
                  .next { t with
                    counters := { s.counters with
                      earlyOverflows := min (s.counters.earlyOverflows + dialled.length) 65535 } }))) ∧
          (900 ≤ n + ms →
            ((s.port p).sup = .test ∨ (s.port p).sup = .quarantine →
              exec (.loopClosed p ms) s =
                .next (porting s p (declared { s.port p with lineClosed := true } .on (.closure 0)))) ∧
            ∃ t, exec (.onHookDeclared p) (porting s p { s.port p with lineClosed := true }) = .next t ∧
              exec (.loopClosed p ms) s =
                .next (if (t.port p).sup = .vacant ∨ (t.port p).sup = .parked then t
                  else porting t p { t.port p with classifier := .closure 0 })))) ∧
      ((s.port p).lineClosed = true →
        (∀ n, (s.port p).classifier = .closure n →
          exec (.loopOpen p) s =
            .next (porting s p { s.port p with lineClosed := false, classifier := .atRest })) ∧
        ((s.port p).classifier = .make →
          exec (.loopOpen p) s =
            .next (porting s p { s.port p with lineClosed := false, classifier := .breaking 0 }))))

/-- A digit ends 250 ms into a make: 1 to 9 pulses give that digit, 10 give 0, 11 give BAD (R34). It goes to the early
list of a SEIZING binding, or is counted as an overflow when four entries stand there; it is sent in DIALLING and
CONNECTED and discarded everywhere else (R36). -/
def Obligations.DigitsAreDelivered : Prop :=
  (∀ n : Nat, 1 ≤ n → digitOfPulses n =
    if h : n < 10 then .num ⟨n, h⟩ else if n = 10 then .num 0 else .bad) ∧
  ∀ (s : State) (p : PortNo) (k : Nat), Quiet s → (s.port p).classifier = .make → (s.port p).makeTimer = some k →
    1 ≤ (s.port p).pulses →
    ((s.port p).sup ≠ .bound →
      exec (.digitEnd p) s = .next (porting s p (declared (s.port p) (s.port p).hook .make))) ∧
    ∀ e b, (s.port p).sup = .bound → Holds s p e b →
      (b.phase = .dialling ∨ b.phase = .connected →
        exec (.digitEnd p) s =
          .next (telling (porting s p (declared (s.port p) (s.port p).hook .make))
            [.digit b.handle (digitOfPulses (s.port p).pulses)])) ∧
      (b.phase = .seizing → (b.early.getD []).length < 4 →
        exec (.digitEnd p) s =
          .next (holding (porting s p (declared (s.port p) (s.port p).hook .make)) e
            (some { b with early := some (b.early.getD [] ++ [.digit (digitOfPulses (s.port p).pulses)]) }))) ∧
      (b.phase = .seizing → 4 ≤ (b.early.getD []).length →
        exec (.digitEnd p) s =
          .next { porting s p (declared (s.port p) (s.port p).hook .make) with
            counters := { s.counters with earlyOverflows := min (s.counters.earlyOverflows + 1) 65535 } }) ∧
      (b.phase = .clearing →
        exec (.digitEnd p) s = .next (porting s p (declared (s.port p) (s.port p).hook .make)))

/-- An off-hook is declared (R30, R38, R39, R43): on an IDLE port it is an origination attempt, which the checks of R38
send to QUARANTINE, to LOCKOUT, to the wait queue or to a SEIZING binding with its SEIZE (R71, R97); a damaged slot at the
pool head is put out of use and the attempt goes on (R51). On a line that waits to ring or rings it is the answer, and the
budget pass follows (R80, R130); a damaged entry ends the call there (R182). In TEST and QUARANTINE it is silent. -/
def Obligations.OffHookIsHandled : Prop :=
  ∀ (s : State) (p : PortNo) (k : Nat), Quiet s → (s.port p).classifier = .closure k →
    ∀ q : Port, q = declared (s.port p) .off .make →
    ∀ tried : Counters, tried = { s.counters with attempted := min (s.counters.attempted + 1) 65535 } →
    ((s.port p).sup = .test ∨ (s.port p).sup = .quarantine →
      exec (.offHookDeclared p) s = .next (porting s p q)) ∧
    ((s.port p).sup = .idle → (s.line p).damaged = true → (s.line p).withdrawn = false →
      (∀ e b, s.call p = some (e, b) → b.phase = .clearing) →
      exec (.offHookDeclared p) s =
        .next (quarantining (telling { porting s p q with counters := tried } [.integrity .line p.val 0]) p)) ∧
    ((s.port p).sup = .idle → InUse s p →
      ((s.line p).status ≠ .active ∨ s.link ≠ .up →
        exec (.offHookDeclared p) s =
          .next { porting s p { q with sup := .lockout } with counters := tried }) ∧
      ((s.line p).status = .active → s.link = .up →
        (s.hasClearing p = true ∨ ¬ Admits s (s.line p).cls →
          exec (.offHookDeclared p) s =
            .next { porting s p { q with sup := .waitSlot } with
              counters := { tried with queued := min (s.counters.queued + 1) 65535 }
              owq := s.owq ++ [{ port := p, left := s.params.tWait * 1000 }] }) ∧
        (∀ n, s.hasClearing p = false → s.pool.head? = some n → Admits s (s.line p).cls →
          ((s.slot n).damaged = true →
            exec (.offHookDeclared p) s =
              exec (.offHookDeclared p) (slotLost (telling s [.integrity .slot (n.val + 1) 0]) n)) ∧
          ∀ e, (s.slot n).damaged = false →
            (s.entry e).binding = none → (∀ f : EntryNo, f < e → (s.entry f).binding ≠ none) →
            exec (.offHookDeclared p) s =
              .next (telling
                { porting s p { q with sup := .bound } with
                  counters := tried
                  pool := s.pool.filter fun m => !decide (m = n)
                  slots := s.slots.set n
                    { state := .bound, handle := s.chooseHandle, blockPending := false, damaged := false }
                  entries := s.entries.set e
                    { binding := some
                        { handle := s.chooseHandle, port := p, slot := n, direction := .orig, phase := .seizing,
                          cadence := none, early := some [], meterCount := 0, pendingPulses := 0, reversal := false,
                          tAccept := some (s.params.tAccept * 1000), tRingwait := none, tRingmax := none,
                          tRelease := none }
                      damaged := false }
                  nextHandle := if s.chooseHandle < 255 then s.chooseHandle + 1 else 1 }
                [.seize s.chooseHandle (n.val + 1) p (s.line p).key])))) ∧
    (∀ e b, (s.port p).sup = .bound → Holds s p e b → b.phase = .ringWait ∨ b.phase = .ringing →
      ¬ NotRinging s b.handle →
      ∀ t : State,
        t = telling
          (holding (unringing (porting s p q) b.handle) e
            (some { b with phase := .connected, tRingwait := none, tRingmax := none }))
          [.answered b.handle] →
      exec (.offHookDeclared p) s = .next t.budgetPass ∧
      (LastToRing s b.handle → exec (.offHookDeclared p) s = .next t)) ∧
    ∀ e b, (s.port p).sup = .bound → s.call p = some (e, b) → (s.entry e).damaged = true →
      b.phase = .ringWait ∨ b.phase = .ringing → LastToRing s b.handle → (s.slot b.slot).damaged = false →
      ¬ Ceasing s p → s.waiting p = false →
      exec (.offHookDeclared p) s =
        .next (telling
          (bindingLost (unringing (faulted (porting s p q) 1) b.handle) e b)
          [.clear (s.slot b.slot).handle .storeFault b.meterCount,
           .integrity .binding e.val (s.slot b.slot).handle])

/-- An on-hook is declared (R33, R40 to R44): on a call it is the line clear, with CLEAR(LINE_CLEAR) and the binding in
CLEARING (R84, R87); on a waiting port it is an abandon; a locked-out port becomes IDLE or PARKED; in TEST and QUARANTINE
it is silent. -/
def Obligations.OnHookIsHandled : Prop :=
  ∀ (s : State) (p : PortNo) (k : Nat), (s.port p).classifier = .breaking k →
    ∀ q : Port, q = declared (s.port p) .on .atRest →
    ((s.port p).sup = .test ∨ (s.port p).sup = .quarantine →
      exec (.onHookDeclared p) s = .next (porting s p q)) ∧
    ((s.port p).sup = .lockout → exec (.onHookDeclared p) s = .next (porting s p (idled q))) ∧
    ((s.port p).sup = .waitSlot →
      exec (.onHookDeclared p) s =
        .next { porting s p (idled q) with
          owq := s.owq.filter fun w => !decide (w.port = p)
          counters := { s.counters with abandons := min (s.counters.abandons + 1) 65535 } }) ∧
    (∀ e b, (s.port p).sup = .bound → Holds s p e b → b.phase ∈ [Phase.seizing, .dialling, .connected] →
      NotRinging s b.handle →
      exec (.onHookDeclared p) s =
        .next (telling
          (holding (porting s p (idled { q with injector := .idle })) e (some (inClearing s b)))
          [.clear b.handle .lineClear b.meterCount]))

/-- A meter pulse ends in a gap of 120 ms; a gap ends in the next pulse, the pending count falling by 1, or at rest (R140,
R141). -/
def Obligations.MeterPulsesRun : Prop :=
  ∀ (s : State) (p : PortNo) (left : Nat),
    ((s.port p).injector = .pulse left →
      exec (.pulseEnd p) s = .next (porting s p { s.port p with injector := .gap 120 })) ∧
    ((s.port p).injector = .gap left →
      (s.call p = none → exec (.gapEnd p) s = .next (porting s p { s.port p with injector := .idle })) ∧
      ∀ e b, Holds s p e b →
        (1 ≤ b.pendingPulses → (s.port p).hook = .off → (s.port p).sup ≠ .test →
          b.phase = .dialling ∨ b.phase = .connected →
          exec (.gapEnd p) s =
            .next (porting (holding s e (some { b with pendingPulses := b.pendingPulses - 1 })) p
              { s.port p with injector := .pulse 120 })) ∧
        (b.pendingPulses = 0 ∨ (s.port p).hook = .on ∨ (s.port p).sup = .test ∨
            (b.phase ≠ .dialling ∧ b.phase ≠ .connected) →
          exec (.gapEnd p) s = .next (porting s p { s.port p with injector := .idle })))

/-- The phase timers run out (R74, R81, R82, R84): T_accept clears with NO_GRANT and locks the port out, T_ringwait with
NO_RING_POWER and T_ringmax with NO_ANSWER make it IDLE or PARKED and run the budget pass, which may start another call
(R129, R131); the binding waits in CLEARING. T_wait takes the port
out of the queue to LOCKOUT (R103). An expiry is taken only while its timer runs (R69). -/
def Obligations.TimersRunOut : Prop :=
  (∀ (s : State) (e : EntryNo) (b : Binding), Named s b.handle e b → (s.port b.port).sup = .bound →
    (b.phase = .seizing → b.tAccept.isSome = true → NotRinging s b.handle →
      exec (.tAcceptExpiry b.handle) s =
        .next (telling
          (holding (porting s b.port { s.port b.port with sup := .lockout, injector := .idle }) e
            (some (inClearing s b)))
          [.clear b.handle .noGrant b.meterCount])) ∧
    (¬ NotRinging s b.handle →
      ∀ u : State, u = holding (unringing (porting s b.port (idled { s.port b.port with injector := .idle })) b.handle) e
          (some (inClearing s b)) →
      (b.phase = .ringWait → b.tRingwait.isSome = true →
        ∀ t : State, t = telling
          { u with
            counters := { s.counters with ringwaitTimeouts := min (s.counters.ringwaitTimeouts + 1) 65535 } }
          [.clear b.handle .noRingPower b.meterCount] →
        exec (.tRingwaitExpiry b.handle) s = .next t.budgetPass ∧
        (LastToRing s b.handle → exec (.tRingwaitExpiry b.handle) s = .next t)) ∧
      (b.phase = .ringWait ∨ b.phase = .ringing → b.tRingmax.isSome = true →
        ∀ t : State, t = telling u [.clear b.handle .noAnswer b.meterCount] →
        exec (.tRingmaxExpiry b.handle) s = .next t.budgetPass ∧
        (LastToRing s b.handle → exec (.tRingmaxExpiry b.handle) s = .next t)))) ∧
  (∀ (s : State) (p : PortNo), s.waiting p = true → (s.port p).sup = .waitSlot →
    exec (.tWaitExpiry p) s =
      .next { porting s p { s.port p with sup := .lockout } with
        owq := s.owq.filter fun w => !decide (w.port = p)
        counters := { s.counters with waitTimeouts := min (s.counters.waitTimeouts + 1) 65535 } }) ∧
  ∀ (s : State) (h : Nat), (∀ e b, s.byHandle h = some (e, b) → b.phase ∈ [Phase.dialling, .connected]) →
    exec (.tAcceptExpiry h) s = .next s ∧ exec (.tRingwaitExpiry h) s = .next s ∧
      exec (.tRingmaxExpiry h) s = .next s ∧ exec (.tReleaseExpiry h) s = .next s

/-! ## Record integrity -/

/-- A storage upset damages one record and leaves its fields (R176). The sweep visits lines, slots and entries in a cycle
of 78 positions, 50 ms apart (R184); a good or withdrawn record causes nothing, and damage is handled there, outside a
call and in one: a damaged line sends the call to CLEARING, a damaged entry or slot ends it (R179, R181, R183, R185). A
call that rings or waits to ring leaves the lists, and the budget pass runs (R129). -/
def Obligations.SweepAndUpsets : Prop :=
  (∀ (s : State),
    (∀ p, exec (.storageUpset (.line p)) s =
      .next { s with lines := s.lines.set p { s.line p with damaged := true } }) ∧
    (∀ n, exec (.storageUpset (.slot n)) s =
      .next { s with slots := s.slots.set n { s.slot n with damaged := true } }) ∧
    (∀ e, exec (.storageUpset (.binding e)) s =
      .next { s with entries := s.entries.set e { s.entry e with damaged := true } })) ∧
  ∀ (s : State), Quiet s → s.storeClearing = false →
    ∀ u : State,
      u = { s with sweepPos := if h : s.sweepPos.val < 77 then ⟨s.sweepPos.val + 1, by omega⟩ else 0, sweepLeft := 50 } →
      (∀ p : PortNo, s.sweepPos.val = p.val →
        (Reads s p → exec .sweepStep s = .next u) ∧
        ((s.line p).damaged = true → (s.line p).withdrawn = false →
          ((∀ e b, s.call p = some (e, b) → b.phase = .clearing) →
            exec .sweepStep s =
              .next (telling
                { faulted u 1 with
                  lines := s.lines.set p { s.line p with withdrawn := true }
                  keyIndex := s.keyIndex.set p none
                  owq := s.owq.filter fun w => !decide (w.port = p)
                  ports := s.ports.set p (quarantined (s.port p)) }
                [.integrity .line p.val 0])) ∧
          ∀ e b, Holds s p e b → b.phase ≠ .clearing → NotRinging s b.handle ∨ EntriesRead s →
            exec .sweepStep s =
              .next (telling (callLineLost (leftRinging u b.handle) e b)
                [.clear b.handle .storeFault b.meterCount, .integrity .line p.val b.handle]))) ∧
      (∀ n : SlotNo, s.sweepPos.val = n.val + 48 →
        ((s.slot n).damaged = false → exec .sweepStep s = .next u) ∧
        ((s.slot n).damaged = true → (s.slot n).state ≠ .bound →
          exec .sweepStep s =
            .next (telling
              { faulted (slotting u n .suspect 0 false) 1 with
                pool := s.pool.filter fun m => !decide (m = n) }
              [.integrity .slot (n.val + 1) 0])) ∧
        ∀ e b, (s.slot n).damaged = true → (s.slot n).state = .bound → b.slot = n → (s.slot n).handle = b.handle →
          Named s b.handle e b → NotRinging s b.handle ∨ EntriesRead s → ¬ Ceasing s b.port →
          s.waiting b.port = false →
          exec .sweepStep s =
            .next (telling (bindingLost (leftRinging (faulted u 1) b.handle) e b)
              [.clear b.handle .storeFault b.meterCount, .integrity .slot (n.val + 1) b.handle])) ∧
      (∀ e : EntryNo, s.sweepPos.val = e.val + 63 →
        ((s.entry e).damaged = false → exec .sweepStep s = .next u) ∧
        ((s.entry e).damaged = true → (s.entry e).binding = none →
          exec .sweepStep s = .next (telling (holding (faulted u 1) e none) [.integrity .binding e.val 0])) ∧
        ∀ b, (s.entry e).damaged = true → (s.entry e).binding = some b →
          NotRinging s b.handle ∨ (∀ f, f ≠ e → (s.entry f).damaged = false) →
          ¬ Ceasing s b.port → s.waiting b.port = false →
          ((s.slot b.slot).damaged = false →
            exec .sweepStep s =
              .next (telling (bindingLost (leftRinging (faulted u 1) b.handle) e b)
                [.clear (s.slot b.slot).handle .storeFault b.meterCount,
                 .integrity .binding e.val (s.slot b.slot).handle])) ∧
          ((s.slot b.slot).damaged = true →
            exec .sweepStep s =
              .next (telling (bindingLost (leftRinging (faulted u 2) b.handle) e b)
                [.integrity .binding e.val 0, .integrity .slot (b.slot.val + 1) 0])))

/-- A record failure on a call, found by a request (R178, R179, R181, R183): a damaged entry, or a damaged slot that is
BOUND, ends the binding at once with CLEAR(STORE_FAULT), no fold and its slot SUSPECT; both together end it without a
CLEAR and with two reports; a damaged line sends the binding to CLEARING and its port to QUARANTINE. The CLEAR goes before
the reply and the INTEGRITY reports after it. -/
def Obligations.CallRecordFailures : Prop :=
  ∀ (s : State) (tag : Nat) (e : EntryNo) (b : Binding), Listening s → Quiet s → NotRinging s b.handle →
    (s.byHandle b.handle = some (e, b) → (s.entry e).damaged = true → ¬ Ceasing s b.port → s.waiting b.port = false →
      ∀ i : Instr, i ∈ [.grant tag (.handle b.handle), .deny tag (.handle b.handle), .answer tag (.handle b.handle),
          .clear tag (.handle b.handle) 0, .cleared tag (.handle b.handle), .meter tag (.handle b.handle) 1] →
        ((s.slot b.slot).damaged = false →
          exec i s =
            .next (bindingLost
              (faulted
                (answering s
                  [.clear (s.slot b.slot).handle .storeFault b.meterCount, .ack tag .storeFault,
                   .integrity .binding e.val (s.slot b.slot).handle]) 1) e b)) ∧
        ((s.slot b.slot).damaged = true →
          exec i s =
            .next (bindingLost
              (faulted
                (answering s
                  [.ack tag .storeFault, .integrity .binding e.val 0,
                   .integrity .slot (b.slot.val + 1) 0]) 2) e b))) ∧
    ((s.slot b.slot).state = .bound → (s.slot b.slot).damaged = true → (s.slot b.slot).handle = b.handle →
      Named s b.handle e b → ¬ Ceasing s b.port → s.waiting b.port = false →
      exec (.blockSlot tag (b.slot.val + 1)) s =
        .next (bindingLost
          (faulted
            (answering s
              [.clear b.handle .storeFault b.meterCount, .ack tag .storeFault,
               .integrity .slot (b.slot.val + 1) b.handle]) 1) e b)) ∧
    ((s.line b.port).damaged = true → (s.line b.port).withdrawn = false → Holds s b.port e b → b.phase ≠ .clearing →
      exec (.readLine tag (.port b.port.val)) s =
        .next { holding
            (faulted
              (answering s
                [.clear b.handle .storeFault b.meterCount, .ack tag .storeFault,
                 .integrity .line b.port.val b.handle]) 1)
            e (some (inClearing s b)) with
          lines := s.lines.set b.port { s.line b.port with withdrawn := true }
          keyIndex := s.keyIndex.set b.port none
          owq := s.owq.filter fun w => !decide (w.port = b.port)
          ports := s.ports.set b.port (quarantined { s.port b.port with injector := .idle }) })

/-! ## The link -/

/-- The link follows the framer indication through two holds of 500 ms (R193). When the alignment hold runs out the link
is UP, and RESTART leaves with the cause and the count that are due, the POWER report and a SENSE report for each faulted
channel after it (R162, R196, R197). -/
def Obligations.LinkFollowsTheFramer : Prop :=
  (∀ s : State,
     (s.framer = .lost → exec .framerLost s = .next s) ∧ (s.framer = .aligned → exec .framerAligned s = .next s) ∧
     (s.framer = .aligned →
       (s.link = .up →
         exec .framerLost s = .next { s with framer := .lost, assembly := [], lossHold := some 500 }) ∧
       (s.link = .aligning →
         exec .framerLost s =
           .next { s with framer := .lost, assembly := [], link := .down, alignHold := none }) ∧
       (s.link = .down → exec .framerLost s = .next { s with framer := .lost, assembly := [] })) ∧
     (s.framer = .lost →
       (s.link = .up → exec .framerAligned s = .next { s with framer := .aligned, lossHold := none }) ∧
       (s.link = .down → s.resetLine = .released → s.storeClearing = false →
         exec .framerAligned s =
           .next { s with framer := .aligned, link := .aligning, alignHold := some 500 }) ∧
       (s.link = .down → s.resetLine = .asserted ∨ s.storeClearing = true →
         exec .framerAligned s = .next { s with framer := .aligned }))) ∧
  ∀ (s : State) (k : Nat), Quiet s → s.link = .aligning → s.alignHold = some k →
    exec .alignmentHoldExpiry s =
      .next { s with
        link := .up
        alignHold := none
        assembly := []
        pendingRestart := .none
        out := { s.out with
          sent := s.out.sent ++
            [match s.pendingRestart with
              | .power n => Message.restart .power n
              | .reset => .restart .reset s.failedNow
              | .none => .restart .link s.failedNow] ++
            [.power s.sense.power s.sense.band s.sense.heldB s.sense.heldT] ++
            (if s.sense.faultB = true then [.sense .battery .fault] else []) ++
            (if s.sense.faultT = true then [.sense .temperature .fault] else []) } }

/-- The loss hold runs out (R194): the link is DOWN, every binding is gone without a message, its count folded and its
slot given up, the queues and the bus are empty, and everything provisioned is kept (R65, R91, R108, R136). The port on
the test bus is placed by its record, the power state and its hook, VACANT when its deferred cease completes (R172, R175;
a withdrawn record first, log entry 12). -/
def Obligations.LinkLossEndsCalls : Prop :=
  ∀ (s : State) (k : Nat), s.link = .up → s.lossHold = some k →
    ∃ t, exec .lossHoldExpiry s = .next t ∧
      (t.link = .down ∧ t.lossHold = none ∧ t.assembly = [] ∧ t.out = s.out ∧ t.owq = [] ∧ t.ringQueue = [] ∧
        t.ringList = [] ∧ t.committed = 0 ∧ t.bus = none ∧ (∀ e, (t.entry e).binding = none) ∧
        (∀ n, t.slot n = givenUp (s.slot n)) ∧ ((∀ n ∈ s.pool, (s.slot n).state = .free) → t.pool = s.pool ++ comingFree s)) ∧
      (t.params = s.params ∧ t.keyPrefix = s.keyPrefix ∧ t.cursor = s.cursor ∧ t.advance = s.advance ∧
        t.cadences = s.cadences ∧ t.nextHandle = s.nextHandle ∧ t.sense = s.sense ∧ t.available = s.available ∧
        t.sweepPos = s.sweepPos ∧ t.sweepLeft = s.sweepLeft ∧ t.framer = s.framer ∧ t.resetLine = s.resetLine ∧
        t.pendingRestart = s.pendingRestart) ∧
      t.engine = (match s.engine with
        | .walk w => .walk { w with linkLost := true }
        | x => x) ∧
      ((∀ p, Reads s p) → (∀ n, (s.slot n).state = .bound → (s.slot n).damaged = false) → t.counters = s.counters) ∧
      (∀ p, Reads s p → ¬ Ceasing s p → (∀ h, s.bus = some h → h.port ≠ p) →
        t.indexKey p = s.indexKey p ∧
        (s.call p = none → t.line p = s.line p ∧
          (s.waiting p = false → t.port p = s.port p) ∧
          (s.waiting p = true → (s.port p).sup = .waitSlot → t.port p = { s.port p with sup := .lockout })) ∧
        ∀ e b, OnlyCall s p e b →
          (t.line p =
            if (s.line p).withdrawn = true then s.line p
            else { s.line p with total := min ((s.line p).total + b.meterCount) 16777215 }) ∧
          (s.waiting p = false → t.port p = settled { s.port p with injector := .idle }) ∧
          (s.waiting p = true → (s.port p).sup = .waitSlot →
            t.port p = { s.port p with sup := .lockout, injector := .idle })) ∧
      ∀ p h, s.bus = some h → h.port = p → (s.port p).sup = .test → s.waiting p = false →
        (Reads s p → ¬ Ceasing s p →
          t.indexKey p = s.indexKey p ∧
          (s.call p = none → t.line p = s.line p ∧ t.port p = released s p) ∧
          ∀ e b, OnlyCall s p e b →
            (t.line p =
              if (s.line p).withdrawn = true then s.line p
              else { s.line p with total := min ((s.line p).total + b.meterCount) 16777215 }) ∧
            t.port p = { released s p with injector := .idle }) ∧
        (InUse s p → Ceasing s p → ∀ e b, OnlyCall s p e b →
          t.line p = { LineRecord.initial with total := min ((s.line p).total + b.meterCount) 16777215 } ∧
          t.indexKey p = none ∧ t.port p = retiredVacant (s.port p))

/-! ## Start-up and reset -/

/-- RESET_CABINET answers OK, makes the warm reset with the link and the frame assembly kept, and sends RESTART(COMMAND)
with the records out of use, POWER, and SENSE for each faulted channel (R162, R187, R197, R208, R210). The reset line
makes the same reset, holds the link DOWN and sets the pending restart; its release looks at the framer (R193, R196,
R209). A withdrawn record is placed before the VACANT row is looked at: the model's reading (log entry 12). Lines with a
deferred cease are in DeferredCeaseCompletes. -/
def Obligations.WarmResets : Prop :=
  (∀ (s : State) (tag : Nat), Listening s → Quiet s →
    ∃ t, exec (.resetCabinet tag) s = .next t ∧ WarmlyReset s t ∧ t.link = .up ∧ t.assembly = s.assembly ∧
      t.pendingRestart = s.pendingRestart ∧
      t.out = { s.out with
        sent := s.out.sent ++
          [.ack tag .ok,
           .restart .command
            (((List.finRange 48).filter fun p => decide ((t.port p).sup = .quarantine)).length +
              ((List.finRange 15).filter fun n => decide ((t.slot n).state = .suspect)).length),
           .power s.sense.power s.sense.band s.sense.heldB s.sense.heldT] ++
          (if s.sense.faultB = true then [.sense .battery .fault] else []) ++
          (if s.sense.faultT = true then [.sense .temperature .fault] else []) }) ∧
  (∀ s : State, s.resetLine = .released → s.storeClearing = false →
    ∃ t, exec .resetLineAsserted s = .next t ∧ WarmlyReset s t ∧ t.resetLine = .asserted ∧ t.link = .down ∧
      t.lossHold = none ∧ t.alignHold = none ∧ t.assembly = [] ∧ t.out = s.out ∧
      t.pendingRestart = (match s.pendingRestart with
        | .power n => .power n
        | _ => .reset)) ∧
  ∀ s : State,
    (s.resetLine = .asserted → exec .resetLineAsserted s = .next s) ∧
    (s.resetLine = .released → s.storeClearing = true →
      exec .resetLineAsserted s = .next { s with resetLine := .asserted }) ∧
    (s.resetLine = .released → exec .resetLineReleased s = .next s) ∧
    (s.resetLine = .asserted →
      (s.link = .down → s.framer = .aligned → s.storeClearing = false →
        exec .resetLineReleased s =
          .next { s with resetLine := .released, link := .aligning, alignHold := some 500 }) ∧
      (s.framer = .lost ∨ s.storeClearing = true →
        exec .resetLineReleased s = .next { s with resetLine := .released }))

/-- POWER_ON begins the store clear of 1,560 ms with the inputs as they stand; its end writes every location afresh, puts
the failed ones out of use, leaves RESTART(POWER, count) pending and starts the alignment hold when the inputs allow it
(R22, R47, R63, R92, R187, R196, R206, R207). What the outside holds, the queue and the log of messages, stays (log entry
11). -/
def Obligations.StartsUp : Prop :=
  (∀ (s : State) (f : Framer) (r : ResetLine),
    ∃ t, exec (.powerOn f r) s = .next t ∧ t.engine = .storeClear 1560 ∧ t.link = .down ∧ t.framer = f ∧
      t.resetLine = r ∧ t.pendingRestart = .none ∧ t.out = s.out ∧ t.pending = s.pending) ∧
  ∀ (s : State) (failed : List Nat) (k : Nat), s.engine = .storeClear k → failed.Nodup → (∀ l ∈ failed, l < 78) →
    ∃ t, exec (.storeClearEnd failed) s = .next t ∧
      (∀ p : PortNo,
        t.line p = { LineRecord.initial with withdrawn := decide (p.val ∈ failed) } ∧ t.indexKey p = none ∧
        t.port p =
          if p.val ∈ failed then
            { Port.initial with
              sup := .quarantine, lineClosed := (s.port p).lineClosed
              classifier := if (s.port p).lineClosed = true then .closure 0 else .atRest }
          else { Port.initial with lineClosed := (s.port p).lineClosed }) ∧
      (∀ n : SlotNo,
        t.slot n =
          { state := if n.val + 48 ∈ failed then .suspect else .free, handle := 0, blockPending := false,
            damaged := false }) ∧
      t.pool = (List.finRange 15).filter (fun n => !decide (n.val + 48 ∈ failed)) ∧
      (∀ e, t.entry e = { binding := none, damaged := false }) ∧ t.nextHandle = 1 ∧ t.owq = [] ∧ t.ringQueue = [] ∧
      t.ringList = [] ∧ t.committed = 0 ∧ t.available = 0 ∧ t.cadences = State.reset.cadences ∧
      t.sense = State.reset.sense ∧ t.bus = none ∧ t.sweepPos = 0 ∧ t.sweepLeft = 50 ∧ t.engine = .idle ∧
      t.params = State.reset.params ∧ t.counters = Counters.zero ∧ t.assembly = [] ∧ t.keyPrefix = 0 ∧ t.cursor = 0 ∧
      t.advance = { write := false, read := false, direction := .up } ∧
      t.pendingRestart = .power failed.length ∧ t.framer = s.framer ∧ t.resetLine = s.resetLine ∧
      t.lossHold = none ∧ t.out = s.out ∧ t.pending = s.pending ∧
      (s.framer = .aligned → s.resetLine = .released → t.link = .aligning ∧ t.alignHold = some 500) ∧
      (s.framer = .lost ∨ s.resetLine = .asserted → t.link = .down ∧ t.alignHold = none)

/-! ## Promises kept by every step -/

/-- Between two steps no message waits for a reply (log entry 14), the ordered pairs of parameters stand in order, every
counter is 0 to 65,535, A is the capacity that the parameters and the held readings give, and the reported band is the
one from which it was computed (11.4, 11.5, R121, R122, R153). -/
def Obligations.BoundsAreKept : Prop :=
  ∀ s t : State, Quiet s → ParamsOrdered s → CountersBounded s → CapacityFollows s → step s = .next t →
    Quiet t ∧ ParamsOrdered t ∧ CountersBounded t ∧ CapacityFollows t

/-- The pool holds each FREE slot once and no other; every live binding holds a BOUND slot that names it, and every BOUND
slot is held by exactly one live binding; handles are distinct and in 1 to 255 (R50, R51, R66, R67). -/
def Obligations.SlotsAndBindingsAgree : Prop :=
  ∀ s t : State, PoolExact s → BindingsExact s → step s = .next t →
    PoolExact t ∧ BindingsExact t ∧ (SlotsHeld s → SlotsHeld t)

/-- L is the sum of the loads on the ringing list, and either L ≤ A, or one binding rings and A is above 0 (R119). -/
def Obligations.BudgetIsKept : Prop :=
  ∀ s t : State, BudgetHeld s → step s = .next t → BudgetHeld t

/-- The key index holds exactly the keys that records hold, each once (R4); a quarantined port's record is withdrawn
(R180); an unfed port has its hook ON with nothing timed (R31). -/
def Obligations.LinesAndPortsAgree : Prop :=
  ∀ s t : State, IndexExact s → PortsPlaced s → step s = .next t → IndexExact t ∧ PortsPlaced t

/-- No port holds two bindings; a port is BOUND exactly when it holds one outside CLEARING (R37, R66); the wait queue holds
each WAIT_SLOT port once and no other (R96); the ring queue and the ringing list hold the RING_WAIT and the RINGING
bindings, each once, under their ports (R116); the port in TEST is the one on the bus (R166); a withdrawn record's port is
in QUARANTINE or in TEST (R180). -/
def Obligations.CallsAndQueuesAgree : Prop :=
  ∀ s t : State, PoolExact s → BindingsExact s → CallsPlaced s → step s = .next t → CallsPlaced t

/-- The promises hold at reset. -/
def Obligations.PromisesHoldAtReset : Prop :=
  Quiet State.reset ∧ ParamsOrdered State.reset ∧ CountersBounded State.reset ∧ CapacityFollows State.reset ∧
  PoolExact State.reset ∧ BindingsExact State.reset ∧ SlotsHeld State.reset ∧ BudgetHeld State.reset ∧ IndexExact State.reset ∧
  PortsPlaced State.reset ∧ CallsPlaced State.reset
end

