-- ==== Sys2Proof/Laws/State.lean ====
section
/-!
SUPPORT. Laws/State.lean: what each update of the state leaves in each field, so that no later proof unfolds a record
update. The five table writes have a lemma for each field. Every other update has one lemma that names every field; simp
takes a rule for each field from it.
-/
namespace Sys2Proof.Machine

variable (s : State)

/-! ## setPort -/

@[simp] theorem State.setPort_pending (p : PortNo) (q : Port) : (s.setPort p q).pending = s.pending := rfl
@[simp] theorem State.setPort_draws (p : PortNo) (q : Port) : (s.setPort p q).draws = s.draws := rfl
@[simp] theorem State.setPort_ports (p : PortNo) (q : Port) : (s.setPort p q).ports = s.ports.set p q := rfl
@[simp] theorem State.setPort_lines (p : PortNo) (q : Port) : (s.setPort p q).lines = s.lines := rfl
@[simp] theorem State.setPort_keyIndex (p : PortNo) (q : Port) : (s.setPort p q).keyIndex = s.keyIndex := rfl
@[simp] theorem State.setPort_keyPrefix (p : PortNo) (q : Port) : (s.setPort p q).keyPrefix = s.keyPrefix := rfl
@[simp] theorem State.setPort_cursor (p : PortNo) (q : Port) : (s.setPort p q).cursor = s.cursor := rfl
@[simp] theorem State.setPort_advance (p : PortNo) (q : Port) : (s.setPort p q).advance = s.advance := rfl
@[simp] theorem State.setPort_slots (p : PortNo) (q : Port) : (s.setPort p q).slots = s.slots := rfl
@[simp] theorem State.setPort_pool (p : PortNo) (q : Port) : (s.setPort p q).pool = s.pool := rfl
@[simp] theorem State.setPort_entries (p : PortNo) (q : Port) : (s.setPort p q).entries = s.entries := rfl
@[simp] theorem State.setPort_nextHandle (p : PortNo) (q : Port) : (s.setPort p q).nextHandle = s.nextHandle := rfl
@[simp] theorem State.setPort_owq (p : PortNo) (q : Port) : (s.setPort p q).owq = s.owq := rfl
@[simp] theorem State.setPort_cadences (p : PortNo) (q : Port) : (s.setPort p q).cadences = s.cadences := rfl
@[simp] theorem State.setPort_ringQueue (p : PortNo) (q : Port) : (s.setPort p q).ringQueue = s.ringQueue := rfl
@[simp] theorem State.setPort_ringList (p : PortNo) (q : Port) : (s.setPort p q).ringList = s.ringList := rfl
@[simp] theorem State.setPort_committed (p : PortNo) (q : Port) : (s.setPort p q).committed = s.committed := rfl
@[simp] theorem State.setPort_available (p : PortNo) (q : Port) : (s.setPort p q).available = s.available := rfl
@[simp] theorem State.setPort_sense (p : PortNo) (q : Port) : (s.setPort p q).sense = s.sense := rfl
@[simp] theorem State.setPort_bus (p : PortNo) (q : Port) : (s.setPort p q).bus = s.bus := rfl
@[simp] theorem State.setPort_sweepPos (p : PortNo) (q : Port) : (s.setPort p q).sweepPos = s.sweepPos := rfl
@[simp] theorem State.setPort_sweepLeft (p : PortNo) (q : Port) : (s.setPort p q).sweepLeft = s.sweepLeft := rfl
@[simp] theorem State.setPort_link (p : PortNo) (q : Port) : (s.setPort p q).link = s.link := rfl
@[simp] theorem State.setPort_framer (p : PortNo) (q : Port) : (s.setPort p q).framer = s.framer := rfl
@[simp] theorem State.setPort_lossHold (p : PortNo) (q : Port) : (s.setPort p q).lossHold = s.lossHold := rfl
@[simp] theorem State.setPort_alignHold (p : PortNo) (q : Port) : (s.setPort p q).alignHold = s.alignHold := rfl
@[simp] theorem State.setPort_resetLine (p : PortNo) (q : Port) : (s.setPort p q).resetLine = s.resetLine := rfl
@[simp] theorem State.setPort_pendingRestart (p : PortNo) (q : Port) : (s.setPort p q).pendingRestart = s.pendingRestart := rfl
@[simp] theorem State.setPort_assembly (p : PortNo) (q : Port) : (s.setPort p q).assembly = s.assembly := rfl
@[simp] theorem State.setPort_engine (p : PortNo) (q : Port) : (s.setPort p q).engine = s.engine := rfl
@[simp] theorem State.setPort_params (p : PortNo) (q : Port) : (s.setPort p q).params = s.params := rfl
@[simp] theorem State.setPort_counters (p : PortNo) (q : Port) : (s.setPort p q).counters = s.counters := rfl
@[simp] theorem State.setPort_out (p : PortNo) (q : Port) : (s.setPort p q).out = s.out := rfl

/-! ## setLine -/

@[simp] theorem State.setLine_pending (p : PortNo) (r : LineRecord) : (s.setLine p r).pending = s.pending := rfl
@[simp] theorem State.setLine_draws (p : PortNo) (r : LineRecord) : (s.setLine p r).draws = s.draws := rfl
@[simp] theorem State.setLine_ports (p : PortNo) (r : LineRecord) : (s.setLine p r).ports = s.ports := rfl
@[simp] theorem State.setLine_lines (p : PortNo) (r : LineRecord) : (s.setLine p r).lines = s.lines.set p r := rfl
@[simp] theorem State.setLine_keyIndex (p : PortNo) (r : LineRecord) : (s.setLine p r).keyIndex = s.keyIndex := rfl
@[simp] theorem State.setLine_keyPrefix (p : PortNo) (r : LineRecord) : (s.setLine p r).keyPrefix = s.keyPrefix := rfl
@[simp] theorem State.setLine_cursor (p : PortNo) (r : LineRecord) : (s.setLine p r).cursor = s.cursor := rfl
@[simp] theorem State.setLine_advance (p : PortNo) (r : LineRecord) : (s.setLine p r).advance = s.advance := rfl
@[simp] theorem State.setLine_slots (p : PortNo) (r : LineRecord) : (s.setLine p r).slots = s.slots := rfl
@[simp] theorem State.setLine_pool (p : PortNo) (r : LineRecord) : (s.setLine p r).pool = s.pool := rfl
@[simp] theorem State.setLine_entries (p : PortNo) (r : LineRecord) : (s.setLine p r).entries = s.entries := rfl
@[simp] theorem State.setLine_nextHandle (p : PortNo) (r : LineRecord) : (s.setLine p r).nextHandle = s.nextHandle := rfl
@[simp] theorem State.setLine_owq (p : PortNo) (r : LineRecord) : (s.setLine p r).owq = s.owq := rfl
@[simp] theorem State.setLine_cadences (p : PortNo) (r : LineRecord) : (s.setLine p r).cadences = s.cadences := rfl
@[simp] theorem State.setLine_ringQueue (p : PortNo) (r : LineRecord) : (s.setLine p r).ringQueue = s.ringQueue := rfl
@[simp] theorem State.setLine_ringList (p : PortNo) (r : LineRecord) : (s.setLine p r).ringList = s.ringList := rfl
@[simp] theorem State.setLine_committed (p : PortNo) (r : LineRecord) : (s.setLine p r).committed = s.committed := rfl
@[simp] theorem State.setLine_available (p : PortNo) (r : LineRecord) : (s.setLine p r).available = s.available := rfl
@[simp] theorem State.setLine_sense (p : PortNo) (r : LineRecord) : (s.setLine p r).sense = s.sense := rfl
@[simp] theorem State.setLine_bus (p : PortNo) (r : LineRecord) : (s.setLine p r).bus = s.bus := rfl
@[simp] theorem State.setLine_sweepPos (p : PortNo) (r : LineRecord) : (s.setLine p r).sweepPos = s.sweepPos := rfl
@[simp] theorem State.setLine_sweepLeft (p : PortNo) (r : LineRecord) : (s.setLine p r).sweepLeft = s.sweepLeft := rfl
@[simp] theorem State.setLine_link (p : PortNo) (r : LineRecord) : (s.setLine p r).link = s.link := rfl
@[simp] theorem State.setLine_framer (p : PortNo) (r : LineRecord) : (s.setLine p r).framer = s.framer := rfl
@[simp] theorem State.setLine_lossHold (p : PortNo) (r : LineRecord) : (s.setLine p r).lossHold = s.lossHold := rfl
@[simp] theorem State.setLine_alignHold (p : PortNo) (r : LineRecord) : (s.setLine p r).alignHold = s.alignHold := rfl
@[simp] theorem State.setLine_resetLine (p : PortNo) (r : LineRecord) : (s.setLine p r).resetLine = s.resetLine := rfl
@[simp] theorem State.setLine_pendingRestart (p : PortNo) (r : LineRecord) : (s.setLine p r).pendingRestart = s.pendingRestart := rfl
@[simp] theorem State.setLine_assembly (p : PortNo) (r : LineRecord) : (s.setLine p r).assembly = s.assembly := rfl
@[simp] theorem State.setLine_engine (p : PortNo) (r : LineRecord) : (s.setLine p r).engine = s.engine := rfl
@[simp] theorem State.setLine_params (p : PortNo) (r : LineRecord) : (s.setLine p r).params = s.params := rfl
@[simp] theorem State.setLine_counters (p : PortNo) (r : LineRecord) : (s.setLine p r).counters = s.counters := rfl
@[simp] theorem State.setLine_out (p : PortNo) (r : LineRecord) : (s.setLine p r).out = s.out := rfl

/-! ## setSlot -/

@[simp] theorem State.setSlot_pending (n : SlotNo) (r : Slot) : (s.setSlot n r).pending = s.pending := rfl
@[simp] theorem State.setSlot_draws (n : SlotNo) (r : Slot) : (s.setSlot n r).draws = s.draws := rfl
@[simp] theorem State.setSlot_ports (n : SlotNo) (r : Slot) : (s.setSlot n r).ports = s.ports := rfl
@[simp] theorem State.setSlot_lines (n : SlotNo) (r : Slot) : (s.setSlot n r).lines = s.lines := rfl
@[simp] theorem State.setSlot_keyIndex (n : SlotNo) (r : Slot) : (s.setSlot n r).keyIndex = s.keyIndex := rfl
@[simp] theorem State.setSlot_keyPrefix (n : SlotNo) (r : Slot) : (s.setSlot n r).keyPrefix = s.keyPrefix := rfl
@[simp] theorem State.setSlot_cursor (n : SlotNo) (r : Slot) : (s.setSlot n r).cursor = s.cursor := rfl
@[simp] theorem State.setSlot_advance (n : SlotNo) (r : Slot) : (s.setSlot n r).advance = s.advance := rfl
@[simp] theorem State.setSlot_slots (n : SlotNo) (r : Slot) : (s.setSlot n r).slots = s.slots.set n r := rfl
@[simp] theorem State.setSlot_pool (n : SlotNo) (r : Slot) : (s.setSlot n r).pool = s.pool := rfl
@[simp] theorem State.setSlot_entries (n : SlotNo) (r : Slot) : (s.setSlot n r).entries = s.entries := rfl
@[simp] theorem State.setSlot_nextHandle (n : SlotNo) (r : Slot) : (s.setSlot n r).nextHandle = s.nextHandle := rfl
@[simp] theorem State.setSlot_owq (n : SlotNo) (r : Slot) : (s.setSlot n r).owq = s.owq := rfl
@[simp] theorem State.setSlot_cadences (n : SlotNo) (r : Slot) : (s.setSlot n r).cadences = s.cadences := rfl
@[simp] theorem State.setSlot_ringQueue (n : SlotNo) (r : Slot) : (s.setSlot n r).ringQueue = s.ringQueue := rfl
@[simp] theorem State.setSlot_ringList (n : SlotNo) (r : Slot) : (s.setSlot n r).ringList = s.ringList := rfl
@[simp] theorem State.setSlot_committed (n : SlotNo) (r : Slot) : (s.setSlot n r).committed = s.committed := rfl
@[simp] theorem State.setSlot_available (n : SlotNo) (r : Slot) : (s.setSlot n r).available = s.available := rfl
@[simp] theorem State.setSlot_sense (n : SlotNo) (r : Slot) : (s.setSlot n r).sense = s.sense := rfl
@[simp] theorem State.setSlot_bus (n : SlotNo) (r : Slot) : (s.setSlot n r).bus = s.bus := rfl
@[simp] theorem State.setSlot_sweepPos (n : SlotNo) (r : Slot) : (s.setSlot n r).sweepPos = s.sweepPos := rfl
@[simp] theorem State.setSlot_sweepLeft (n : SlotNo) (r : Slot) : (s.setSlot n r).sweepLeft = s.sweepLeft := rfl
@[simp] theorem State.setSlot_link (n : SlotNo) (r : Slot) : (s.setSlot n r).link = s.link := rfl
@[simp] theorem State.setSlot_framer (n : SlotNo) (r : Slot) : (s.setSlot n r).framer = s.framer := rfl
@[simp] theorem State.setSlot_lossHold (n : SlotNo) (r : Slot) : (s.setSlot n r).lossHold = s.lossHold := rfl
@[simp] theorem State.setSlot_alignHold (n : SlotNo) (r : Slot) : (s.setSlot n r).alignHold = s.alignHold := rfl
@[simp] theorem State.setSlot_resetLine (n : SlotNo) (r : Slot) : (s.setSlot n r).resetLine = s.resetLine := rfl
@[simp] theorem State.setSlot_pendingRestart (n : SlotNo) (r : Slot) : (s.setSlot n r).pendingRestart = s.pendingRestart := rfl
@[simp] theorem State.setSlot_assembly (n : SlotNo) (r : Slot) : (s.setSlot n r).assembly = s.assembly := rfl
@[simp] theorem State.setSlot_engine (n : SlotNo) (r : Slot) : (s.setSlot n r).engine = s.engine := rfl
@[simp] theorem State.setSlot_params (n : SlotNo) (r : Slot) : (s.setSlot n r).params = s.params := rfl
@[simp] theorem State.setSlot_counters (n : SlotNo) (r : Slot) : (s.setSlot n r).counters = s.counters := rfl
@[simp] theorem State.setSlot_out (n : SlotNo) (r : Slot) : (s.setSlot n r).out = s.out := rfl

/-! ## setEntry -/

@[simp] theorem State.setEntry_pending (e : EntryNo) (r : Entry) : (s.setEntry e r).pending = s.pending := rfl
@[simp] theorem State.setEntry_draws (e : EntryNo) (r : Entry) : (s.setEntry e r).draws = s.draws := rfl
@[simp] theorem State.setEntry_ports (e : EntryNo) (r : Entry) : (s.setEntry e r).ports = s.ports := rfl
@[simp] theorem State.setEntry_lines (e : EntryNo) (r : Entry) : (s.setEntry e r).lines = s.lines := rfl
@[simp] theorem State.setEntry_keyIndex (e : EntryNo) (r : Entry) : (s.setEntry e r).keyIndex = s.keyIndex := rfl
@[simp] theorem State.setEntry_keyPrefix (e : EntryNo) (r : Entry) : (s.setEntry e r).keyPrefix = s.keyPrefix := rfl
@[simp] theorem State.setEntry_cursor (e : EntryNo) (r : Entry) : (s.setEntry e r).cursor = s.cursor := rfl
@[simp] theorem State.setEntry_advance (e : EntryNo) (r : Entry) : (s.setEntry e r).advance = s.advance := rfl
@[simp] theorem State.setEntry_slots (e : EntryNo) (r : Entry) : (s.setEntry e r).slots = s.slots := rfl
@[simp] theorem State.setEntry_pool (e : EntryNo) (r : Entry) : (s.setEntry e r).pool = s.pool := rfl
@[simp] theorem State.setEntry_entries (e : EntryNo) (r : Entry) : (s.setEntry e r).entries = s.entries.set e r := rfl
@[simp] theorem State.setEntry_nextHandle (e : EntryNo) (r : Entry) : (s.setEntry e r).nextHandle = s.nextHandle := rfl
@[simp] theorem State.setEntry_owq (e : EntryNo) (r : Entry) : (s.setEntry e r).owq = s.owq := rfl
@[simp] theorem State.setEntry_cadences (e : EntryNo) (r : Entry) : (s.setEntry e r).cadences = s.cadences := rfl
@[simp] theorem State.setEntry_ringQueue (e : EntryNo) (r : Entry) : (s.setEntry e r).ringQueue = s.ringQueue := rfl
@[simp] theorem State.setEntry_ringList (e : EntryNo) (r : Entry) : (s.setEntry e r).ringList = s.ringList := rfl
@[simp] theorem State.setEntry_committed (e : EntryNo) (r : Entry) : (s.setEntry e r).committed = s.committed := rfl
@[simp] theorem State.setEntry_available (e : EntryNo) (r : Entry) : (s.setEntry e r).available = s.available := rfl
@[simp] theorem State.setEntry_sense (e : EntryNo) (r : Entry) : (s.setEntry e r).sense = s.sense := rfl
@[simp] theorem State.setEntry_bus (e : EntryNo) (r : Entry) : (s.setEntry e r).bus = s.bus := rfl
@[simp] theorem State.setEntry_sweepPos (e : EntryNo) (r : Entry) : (s.setEntry e r).sweepPos = s.sweepPos := rfl
@[simp] theorem State.setEntry_sweepLeft (e : EntryNo) (r : Entry) : (s.setEntry e r).sweepLeft = s.sweepLeft := rfl
@[simp] theorem State.setEntry_link (e : EntryNo) (r : Entry) : (s.setEntry e r).link = s.link := rfl
@[simp] theorem State.setEntry_framer (e : EntryNo) (r : Entry) : (s.setEntry e r).framer = s.framer := rfl
@[simp] theorem State.setEntry_lossHold (e : EntryNo) (r : Entry) : (s.setEntry e r).lossHold = s.lossHold := rfl
@[simp] theorem State.setEntry_alignHold (e : EntryNo) (r : Entry) : (s.setEntry e r).alignHold = s.alignHold := rfl
@[simp] theorem State.setEntry_resetLine (e : EntryNo) (r : Entry) : (s.setEntry e r).resetLine = s.resetLine := rfl
@[simp] theorem State.setEntry_pendingRestart (e : EntryNo) (r : Entry) : (s.setEntry e r).pendingRestart = s.pendingRestart := rfl
@[simp] theorem State.setEntry_assembly (e : EntryNo) (r : Entry) : (s.setEntry e r).assembly = s.assembly := rfl
@[simp] theorem State.setEntry_engine (e : EntryNo) (r : Entry) : (s.setEntry e r).engine = s.engine := rfl
@[simp] theorem State.setEntry_params (e : EntryNo) (r : Entry) : (s.setEntry e r).params = s.params := rfl
@[simp] theorem State.setEntry_counters (e : EntryNo) (r : Entry) : (s.setEntry e r).counters = s.counters := rfl
@[simp] theorem State.setEntry_out (e : EntryNo) (r : Entry) : (s.setEntry e r).out = s.out := rfl

/-! ## setIndex -/

@[simp] theorem State.setIndex_pending (p : PortNo) (k : Option Nat) : (s.setIndex p k).pending = s.pending := rfl
@[simp] theorem State.setIndex_draws (p : PortNo) (k : Option Nat) : (s.setIndex p k).draws = s.draws := rfl
@[simp] theorem State.setIndex_ports (p : PortNo) (k : Option Nat) : (s.setIndex p k).ports = s.ports := rfl
@[simp] theorem State.setIndex_lines (p : PortNo) (k : Option Nat) : (s.setIndex p k).lines = s.lines := rfl
@[simp] theorem State.setIndex_keyIndex (p : PortNo) (k : Option Nat) : (s.setIndex p k).keyIndex = s.keyIndex.set p k := rfl
@[simp] theorem State.setIndex_keyPrefix (p : PortNo) (k : Option Nat) : (s.setIndex p k).keyPrefix = s.keyPrefix := rfl
@[simp] theorem State.setIndex_cursor (p : PortNo) (k : Option Nat) : (s.setIndex p k).cursor = s.cursor := rfl
@[simp] theorem State.setIndex_advance (p : PortNo) (k : Option Nat) : (s.setIndex p k).advance = s.advance := rfl
@[simp] theorem State.setIndex_slots (p : PortNo) (k : Option Nat) : (s.setIndex p k).slots = s.slots := rfl
@[simp] theorem State.setIndex_pool (p : PortNo) (k : Option Nat) : (s.setIndex p k).pool = s.pool := rfl
@[simp] theorem State.setIndex_entries (p : PortNo) (k : Option Nat) : (s.setIndex p k).entries = s.entries := rfl
@[simp] theorem State.setIndex_nextHandle (p : PortNo) (k : Option Nat) : (s.setIndex p k).nextHandle = s.nextHandle := rfl
@[simp] theorem State.setIndex_owq (p : PortNo) (k : Option Nat) : (s.setIndex p k).owq = s.owq := rfl
@[simp] theorem State.setIndex_cadences (p : PortNo) (k : Option Nat) : (s.setIndex p k).cadences = s.cadences := rfl
@[simp] theorem State.setIndex_ringQueue (p : PortNo) (k : Option Nat) : (s.setIndex p k).ringQueue = s.ringQueue := rfl
@[simp] theorem State.setIndex_ringList (p : PortNo) (k : Option Nat) : (s.setIndex p k).ringList = s.ringList := rfl
@[simp] theorem State.setIndex_committed (p : PortNo) (k : Option Nat) : (s.setIndex p k).committed = s.committed := rfl
@[simp] theorem State.setIndex_available (p : PortNo) (k : Option Nat) : (s.setIndex p k).available = s.available := rfl
@[simp] theorem State.setIndex_sense (p : PortNo) (k : Option Nat) : (s.setIndex p k).sense = s.sense := rfl
@[simp] theorem State.setIndex_bus (p : PortNo) (k : Option Nat) : (s.setIndex p k).bus = s.bus := rfl
@[simp] theorem State.setIndex_sweepPos (p : PortNo) (k : Option Nat) : (s.setIndex p k).sweepPos = s.sweepPos := rfl
@[simp] theorem State.setIndex_sweepLeft (p : PortNo) (k : Option Nat) : (s.setIndex p k).sweepLeft = s.sweepLeft := rfl
@[simp] theorem State.setIndex_link (p : PortNo) (k : Option Nat) : (s.setIndex p k).link = s.link := rfl
@[simp] theorem State.setIndex_framer (p : PortNo) (k : Option Nat) : (s.setIndex p k).framer = s.framer := rfl
@[simp] theorem State.setIndex_lossHold (p : PortNo) (k : Option Nat) : (s.setIndex p k).lossHold = s.lossHold := rfl
@[simp] theorem State.setIndex_alignHold (p : PortNo) (k : Option Nat) : (s.setIndex p k).alignHold = s.alignHold := rfl
@[simp] theorem State.setIndex_resetLine (p : PortNo) (k : Option Nat) : (s.setIndex p k).resetLine = s.resetLine := rfl
@[simp] theorem State.setIndex_pendingRestart (p : PortNo) (k : Option Nat) : (s.setIndex p k).pendingRestart = s.pendingRestart := rfl
@[simp] theorem State.setIndex_assembly (p : PortNo) (k : Option Nat) : (s.setIndex p k).assembly = s.assembly := rfl
@[simp] theorem State.setIndex_engine (p : PortNo) (k : Option Nat) : (s.setIndex p k).engine = s.engine := rfl
@[simp] theorem State.setIndex_params (p : PortNo) (k : Option Nat) : (s.setIndex p k).params = s.params := rfl
@[simp] theorem State.setIndex_counters (p : PortNo) (k : Option Nat) : (s.setIndex p k).counters = s.counters := rfl
@[simp] theorem State.setIndex_out (p : PortNo) (k : Option Nat) : (s.setIndex p k).out = s.out := rfl

/-! ## The way out and the counters -/

@[simp] theorem State.countFault_fields :
    (s.countFault).pending = s.pending ∧ (s.countFault).draws = s.draws ∧ (s.countFault).ports = s.ports ∧
    (s.countFault).lines = s.lines ∧ (s.countFault).keyIndex = s.keyIndex ∧ (s.countFault).keyPrefix = s.keyPrefix ∧
    (s.countFault).cursor = s.cursor ∧ (s.countFault).advance = s.advance ∧ (s.countFault).slots = s.slots ∧
    (s.countFault).pool = s.pool ∧ (s.countFault).entries = s.entries ∧ (s.countFault).nextHandle = s.nextHandle ∧
    (s.countFault).owq = s.owq ∧ (s.countFault).cadences = s.cadences ∧ (s.countFault).ringQueue = s.ringQueue ∧
    (s.countFault).ringList = s.ringList ∧ (s.countFault).committed = s.committed ∧
    (s.countFault).available = s.available ∧ (s.countFault).sense = s.sense ∧ (s.countFault).bus = s.bus ∧
    (s.countFault).sweepPos = s.sweepPos ∧ (s.countFault).sweepLeft = s.sweepLeft ∧ (s.countFault).link = s.link ∧
    (s.countFault).framer = s.framer ∧ (s.countFault).lossHold = s.lossHold ∧
    (s.countFault).alignHold = s.alignHold ∧ (s.countFault).resetLine = s.resetLine ∧
    (s.countFault).pendingRestart = s.pendingRestart ∧ (s.countFault).assembly = s.assembly ∧
    (s.countFault).engine = s.engine ∧ (s.countFault).params = s.params ∧
    (s.countFault).counters = { s.counters with integrityFaults := bump s.counters.integrityFaults } ∧
    (s.countFault).out = s.out := by
  and_intros <;> rfl

@[simp] theorem State.countNoSlot_fields :
    (s.countNoSlot).pending = s.pending ∧ (s.countNoSlot).draws = s.draws ∧ (s.countNoSlot).ports = s.ports ∧
    (s.countNoSlot).lines = s.lines ∧ (s.countNoSlot).keyIndex = s.keyIndex ∧
    (s.countNoSlot).keyPrefix = s.keyPrefix ∧ (s.countNoSlot).cursor = s.cursor ∧
    (s.countNoSlot).advance = s.advance ∧ (s.countNoSlot).slots = s.slots ∧ (s.countNoSlot).pool = s.pool ∧
    (s.countNoSlot).entries = s.entries ∧ (s.countNoSlot).nextHandle = s.nextHandle ∧ (s.countNoSlot).owq = s.owq ∧
    (s.countNoSlot).cadences = s.cadences ∧ (s.countNoSlot).ringQueue = s.ringQueue ∧
    (s.countNoSlot).ringList = s.ringList ∧ (s.countNoSlot).committed = s.committed ∧
    (s.countNoSlot).available = s.available ∧ (s.countNoSlot).sense = s.sense ∧ (s.countNoSlot).bus = s.bus ∧
    (s.countNoSlot).sweepPos = s.sweepPos ∧ (s.countNoSlot).sweepLeft = s.sweepLeft ∧ (s.countNoSlot).link = s.link ∧
    (s.countNoSlot).framer = s.framer ∧ (s.countNoSlot).lossHold = s.lossHold ∧
    (s.countNoSlot).alignHold = s.alignHold ∧ (s.countNoSlot).resetLine = s.resetLine ∧
    (s.countNoSlot).pendingRestart = s.pendingRestart ∧ (s.countNoSlot).assembly = s.assembly ∧
    (s.countNoSlot).engine = s.engine ∧ (s.countNoSlot).params = s.params ∧
    (s.countNoSlot).counters = { s.counters with noSlot := bump s.counters.noSlot } ∧
    (s.countNoSlot).out = s.out := by
  and_intros <;> rfl

@[simp] theorem State.countAttempt_fields :
    (s.countAttempt).pending = s.pending ∧ (s.countAttempt).draws = s.draws ∧ (s.countAttempt).ports = s.ports ∧
    (s.countAttempt).lines = s.lines ∧ (s.countAttempt).keyIndex = s.keyIndex ∧
    (s.countAttempt).keyPrefix = s.keyPrefix ∧ (s.countAttempt).cursor = s.cursor ∧
    (s.countAttempt).advance = s.advance ∧ (s.countAttempt).slots = s.slots ∧ (s.countAttempt).pool = s.pool ∧
    (s.countAttempt).entries = s.entries ∧ (s.countAttempt).nextHandle = s.nextHandle ∧
    (s.countAttempt).owq = s.owq ∧ (s.countAttempt).cadences = s.cadences ∧
    (s.countAttempt).ringQueue = s.ringQueue ∧ (s.countAttempt).ringList = s.ringList ∧
    (s.countAttempt).committed = s.committed ∧ (s.countAttempt).available = s.available ∧
    (s.countAttempt).sense = s.sense ∧ (s.countAttempt).bus = s.bus ∧ (s.countAttempt).sweepPos = s.sweepPos ∧
    (s.countAttempt).sweepLeft = s.sweepLeft ∧ (s.countAttempt).link = s.link ∧ (s.countAttempt).framer = s.framer ∧
    (s.countAttempt).lossHold = s.lossHold ∧ (s.countAttempt).alignHold = s.alignHold ∧
    (s.countAttempt).resetLine = s.resetLine ∧ (s.countAttempt).pendingRestart = s.pendingRestart ∧
    (s.countAttempt).assembly = s.assembly ∧ (s.countAttempt).engine = s.engine ∧
    (s.countAttempt).params = s.params ∧
    (s.countAttempt).counters = { s.counters with attempted := bump s.counters.attempted } ∧
    (s.countAttempt).out = s.out := by
  and_intros <;> rfl

@[simp] theorem State.hold_fields :
    (s.hold).pending = s.pending ∧ (s.hold).draws = s.draws ∧ (s.hold).ports = s.ports ∧ (s.hold).lines = s.lines ∧
    (s.hold).keyIndex = s.keyIndex ∧ (s.hold).keyPrefix = s.keyPrefix ∧ (s.hold).cursor = s.cursor ∧
    (s.hold).advance = s.advance ∧ (s.hold).slots = s.slots ∧ (s.hold).pool = s.pool ∧ (s.hold).entries = s.entries ∧
    (s.hold).nextHandle = s.nextHandle ∧ (s.hold).owq = s.owq ∧ (s.hold).cadences = s.cadences ∧
    (s.hold).ringQueue = s.ringQueue ∧ (s.hold).ringList = s.ringList ∧ (s.hold).committed = s.committed ∧
    (s.hold).available = s.available ∧ (s.hold).sense = s.sense ∧ (s.hold).bus = s.bus ∧
    (s.hold).sweepPos = s.sweepPos ∧ (s.hold).sweepLeft = s.sweepLeft ∧ (s.hold).link = s.link ∧
    (s.hold).framer = s.framer ∧ (s.hold).lossHold = s.lossHold ∧ (s.hold).alignHold = s.alignHold ∧
    (s.hold).resetLine = s.resetLine ∧ (s.hold).pendingRestart = s.pendingRestart ∧ (s.hold).assembly = s.assembly ∧
    (s.hold).engine = s.engine ∧ (s.hold).params = s.params ∧ (s.hold).counters = s.counters ∧
    (s.hold).out = { s.out with holding := true } := by
  and_intros <;> rfl

@[simp] theorem State.release_fields :
    (s.release).pending = s.pending ∧ (s.release).draws = s.draws ∧ (s.release).ports = s.ports ∧
    (s.release).lines = s.lines ∧ (s.release).keyIndex = s.keyIndex ∧ (s.release).keyPrefix = s.keyPrefix ∧
    (s.release).cursor = s.cursor ∧ (s.release).advance = s.advance ∧ (s.release).slots = s.slots ∧
    (s.release).pool = s.pool ∧ (s.release).entries = s.entries ∧ (s.release).nextHandle = s.nextHandle ∧
    (s.release).owq = s.owq ∧ (s.release).cadences = s.cadences ∧ (s.release).ringQueue = s.ringQueue ∧
    (s.release).ringList = s.ringList ∧ (s.release).committed = s.committed ∧ (s.release).available = s.available ∧
    (s.release).sense = s.sense ∧ (s.release).bus = s.bus ∧ (s.release).sweepPos = s.sweepPos ∧
    (s.release).sweepLeft = s.sweepLeft ∧ (s.release).link = s.link ∧ (s.release).framer = s.framer ∧
    (s.release).lossHold = s.lossHold ∧ (s.release).alignHold = s.alignHold ∧ (s.release).resetLine = s.resetLine ∧
    (s.release).pendingRestart = s.pendingRestart ∧ (s.release).assembly = s.assembly ∧
    (s.release).engine = s.engine ∧ (s.release).params = s.params ∧ (s.release).counters = s.counters ∧
    (s.release).out = { sent := s.out.sent ++ s.out.held, held := [], holding := false } := by
  and_intros <;> rfl

@[simp] theorem State.sendNow_fields (m : Message) :
    (s.sendNow m).pending = s.pending ∧ (s.sendNow m).draws = s.draws ∧ (s.sendNow m).ports = s.ports ∧
    (s.sendNow m).lines = s.lines ∧ (s.sendNow m).keyIndex = s.keyIndex ∧ (s.sendNow m).keyPrefix = s.keyPrefix ∧
    (s.sendNow m).cursor = s.cursor ∧ (s.sendNow m).advance = s.advance ∧ (s.sendNow m).slots = s.slots ∧
    (s.sendNow m).pool = s.pool ∧ (s.sendNow m).entries = s.entries ∧ (s.sendNow m).nextHandle = s.nextHandle ∧
    (s.sendNow m).owq = s.owq ∧ (s.sendNow m).cadences = s.cadences ∧ (s.sendNow m).ringQueue = s.ringQueue ∧
    (s.sendNow m).ringList = s.ringList ∧ (s.sendNow m).committed = s.committed ∧
    (s.sendNow m).available = s.available ∧ (s.sendNow m).sense = s.sense ∧ (s.sendNow m).bus = s.bus ∧
    (s.sendNow m).sweepPos = s.sweepPos ∧ (s.sendNow m).sweepLeft = s.sweepLeft ∧ (s.sendNow m).link = s.link ∧
    (s.sendNow m).framer = s.framer ∧ (s.sendNow m).lossHold = s.lossHold ∧ (s.sendNow m).alignHold = s.alignHold ∧
    (s.sendNow m).resetLine = s.resetLine ∧ (s.sendNow m).pendingRestart = s.pendingRestart ∧
    (s.sendNow m).assembly = s.assembly ∧ (s.sendNow m).engine = s.engine ∧ (s.sendNow m).params = s.params ∧
    (s.sendNow m).counters = s.counters := by
  unfold State.sendNow
  split <;> simp only [and_self]

@[simp] theorem State.send_fields (m : Message) :
    (s.send m).pending = s.pending ∧ (s.send m).draws = s.draws ∧ (s.send m).ports = s.ports ∧
    (s.send m).lines = s.lines ∧ (s.send m).keyIndex = s.keyIndex ∧ (s.send m).keyPrefix = s.keyPrefix ∧
    (s.send m).cursor = s.cursor ∧ (s.send m).advance = s.advance ∧ (s.send m).slots = s.slots ∧
    (s.send m).pool = s.pool ∧ (s.send m).entries = s.entries ∧ (s.send m).nextHandle = s.nextHandle ∧
    (s.send m).owq = s.owq ∧ (s.send m).cadences = s.cadences ∧ (s.send m).ringQueue = s.ringQueue ∧
    (s.send m).ringList = s.ringList ∧ (s.send m).committed = s.committed ∧ (s.send m).available = s.available ∧
    (s.send m).sense = s.sense ∧ (s.send m).bus = s.bus ∧ (s.send m).sweepPos = s.sweepPos ∧
    (s.send m).sweepLeft = s.sweepLeft ∧ (s.send m).link = s.link ∧ (s.send m).framer = s.framer ∧
    (s.send m).lossHold = s.lossHold ∧ (s.send m).alignHold = s.alignHold ∧ (s.send m).resetLine = s.resetLine ∧
    (s.send m).pendingRestart = s.pendingRestart ∧ (s.send m).assembly = s.assembly ∧ (s.send m).engine = s.engine ∧
    (s.send m).params = s.params ∧ (s.send m).counters = s.counters := by
  unfold State.send
  split
  · split <;> simp only [and_self]
  · simp only [and_self]

@[simp] theorem State.reply_fields (m : Message) :
    (s.reply m).pending = s.pending ∧ (s.reply m).draws = s.draws ∧ (s.reply m).ports = s.ports ∧
    (s.reply m).lines = s.lines ∧ (s.reply m).keyIndex = s.keyIndex ∧ (s.reply m).keyPrefix = s.keyPrefix ∧
    (s.reply m).cursor = s.cursor ∧ (s.reply m).advance = s.advance ∧ (s.reply m).slots = s.slots ∧
    (s.reply m).pool = s.pool ∧ (s.reply m).entries = s.entries ∧ (s.reply m).nextHandle = s.nextHandle ∧
    (s.reply m).owq = s.owq ∧ (s.reply m).cadences = s.cadences ∧ (s.reply m).ringQueue = s.ringQueue ∧
    (s.reply m).ringList = s.ringList ∧ (s.reply m).committed = s.committed ∧ (s.reply m).available = s.available ∧
    (s.reply m).sense = s.sense ∧ (s.reply m).bus = s.bus ∧ (s.reply m).sweepPos = s.sweepPos ∧
    (s.reply m).sweepLeft = s.sweepLeft ∧ (s.reply m).link = s.link ∧ (s.reply m).framer = s.framer ∧
    (s.reply m).lossHold = s.lossHold ∧ (s.reply m).alignHold = s.alignHold ∧ (s.reply m).resetLine = s.resetLine ∧
    (s.reply m).pendingRestart = s.pendingRestart ∧ (s.reply m).assembly = s.assembly ∧
    (s.reply m).engine = s.engine ∧ (s.reply m).params = s.params ∧ (s.reply m).counters = s.counters := by
  simp [State.reply]

@[simp] theorem State.ack_fields (tag : Nat) (c : Code) :
    (s.ack tag c).pending = s.pending ∧ (s.ack tag c).draws = s.draws ∧ (s.ack tag c).ports = s.ports ∧
    (s.ack tag c).lines = s.lines ∧ (s.ack tag c).keyIndex = s.keyIndex ∧ (s.ack tag c).keyPrefix = s.keyPrefix ∧
    (s.ack tag c).cursor = s.cursor ∧ (s.ack tag c).advance = s.advance ∧ (s.ack tag c).slots = s.slots ∧
    (s.ack tag c).pool = s.pool ∧ (s.ack tag c).entries = s.entries ∧ (s.ack tag c).nextHandle = s.nextHandle ∧
    (s.ack tag c).owq = s.owq ∧ (s.ack tag c).cadences = s.cadences ∧ (s.ack tag c).ringQueue = s.ringQueue ∧
    (s.ack tag c).ringList = s.ringList ∧ (s.ack tag c).committed = s.committed ∧
    (s.ack tag c).available = s.available ∧ (s.ack tag c).sense = s.sense ∧ (s.ack tag c).bus = s.bus ∧
    (s.ack tag c).sweepPos = s.sweepPos ∧ (s.ack tag c).sweepLeft = s.sweepLeft ∧ (s.ack tag c).link = s.link ∧
    (s.ack tag c).framer = s.framer ∧ (s.ack tag c).lossHold = s.lossHold ∧ (s.ack tag c).alignHold = s.alignHold ∧
    (s.ack tag c).resetLine = s.resetLine ∧ (s.ack tag c).pendingRestart = s.pendingRestart ∧
    (s.ack tag c).assembly = s.assembly ∧ (s.ack tag c).engine = s.engine ∧ (s.ack tag c).params = s.params ∧
    (s.ack tag c).counters = s.counters := by
  simp [State.ack]

/-! ## Ports, queues, slots -/

@[simp] theorem State.leaveQueue_fields (p : PortNo) :
    (s.leaveQueue p).pending = s.pending ∧ (s.leaveQueue p).draws = s.draws ∧ (s.leaveQueue p).ports = s.ports ∧
    (s.leaveQueue p).lines = s.lines ∧ (s.leaveQueue p).keyIndex = s.keyIndex ∧
    (s.leaveQueue p).keyPrefix = s.keyPrefix ∧ (s.leaveQueue p).cursor = s.cursor ∧
    (s.leaveQueue p).advance = s.advance ∧ (s.leaveQueue p).slots = s.slots ∧ (s.leaveQueue p).pool = s.pool ∧
    (s.leaveQueue p).entries = s.entries ∧ (s.leaveQueue p).nextHandle = s.nextHandle ∧
    (s.leaveQueue p).owq = s.owq.filter (fun w => !decide (w.port = p)) ∧ (s.leaveQueue p).cadences = s.cadences ∧
    (s.leaveQueue p).ringQueue = s.ringQueue ∧ (s.leaveQueue p).ringList = s.ringList ∧
    (s.leaveQueue p).committed = s.committed ∧ (s.leaveQueue p).available = s.available ∧
    (s.leaveQueue p).sense = s.sense ∧ (s.leaveQueue p).bus = s.bus ∧ (s.leaveQueue p).sweepPos = s.sweepPos ∧
    (s.leaveQueue p).sweepLeft = s.sweepLeft ∧ (s.leaveQueue p).link = s.link ∧ (s.leaveQueue p).framer = s.framer ∧
    (s.leaveQueue p).lossHold = s.lossHold ∧ (s.leaveQueue p).alignHold = s.alignHold ∧
    (s.leaveQueue p).resetLine = s.resetLine ∧ (s.leaveQueue p).pendingRestart = s.pendingRestart ∧
    (s.leaveQueue p).assembly = s.assembly ∧ (s.leaveQueue p).engine = s.engine ∧
    (s.leaveQueue p).params = s.params ∧ (s.leaveQueue p).counters = s.counters ∧ (s.leaveQueue p).out = s.out := by
  and_intros <;> rfl

@[simp] theorem State.dropQueued_fields (h : Nat) :
    (s.dropQueued h).pending = s.pending ∧ (s.dropQueued h).draws = s.draws ∧ (s.dropQueued h).ports = s.ports ∧
    (s.dropQueued h).lines = s.lines ∧ (s.dropQueued h).keyIndex = s.keyIndex ∧
    (s.dropQueued h).keyPrefix = s.keyPrefix ∧ (s.dropQueued h).cursor = s.cursor ∧
    (s.dropQueued h).advance = s.advance ∧ (s.dropQueued h).slots = s.slots ∧ (s.dropQueued h).pool = s.pool ∧
    (s.dropQueued h).entries = s.entries ∧ (s.dropQueued h).nextHandle = s.nextHandle ∧
    (s.dropQueued h).owq = s.owq ∧ (s.dropQueued h).cadences = s.cadences ∧
    (s.dropQueued h).ringQueue = s.ringQueue.filter (fun q => !decide (q.handle = h)) ∧
    (s.dropQueued h).ringList = s.ringList ∧ (s.dropQueued h).committed = s.committed ∧
    (s.dropQueued h).available = s.available ∧ (s.dropQueued h).sense = s.sense ∧ (s.dropQueued h).bus = s.bus ∧
    (s.dropQueued h).sweepPos = s.sweepPos ∧ (s.dropQueued h).sweepLeft = s.sweepLeft ∧
    (s.dropQueued h).link = s.link ∧ (s.dropQueued h).framer = s.framer ∧ (s.dropQueued h).lossHold = s.lossHold ∧
    (s.dropQueued h).alignHold = s.alignHold ∧ (s.dropQueued h).resetLine = s.resetLine ∧
    (s.dropQueued h).pendingRestart = s.pendingRestart ∧ (s.dropQueued h).assembly = s.assembly ∧
    (s.dropQueued h).engine = s.engine ∧ (s.dropQueued h).params = s.params ∧
    (s.dropQueued h).counters = s.counters ∧ (s.dropQueued h).out = s.out := by
  and_intros <;> rfl

@[simp] theorem State.dropRinging_fields (h : Nat) :
    (s.dropRinging h).pending = s.pending ∧ (s.dropRinging h).draws = s.draws ∧ (s.dropRinging h).ports = s.ports ∧
    (s.dropRinging h).lines = s.lines ∧ (s.dropRinging h).keyIndex = s.keyIndex ∧
    (s.dropRinging h).keyPrefix = s.keyPrefix ∧ (s.dropRinging h).cursor = s.cursor ∧
    (s.dropRinging h).advance = s.advance ∧ (s.dropRinging h).slots = s.slots ∧ (s.dropRinging h).pool = s.pool ∧
    (s.dropRinging h).entries = s.entries ∧ (s.dropRinging h).nextHandle = s.nextHandle ∧
    (s.dropRinging h).owq = s.owq ∧ (s.dropRinging h).cadences = s.cadences ∧
    (s.dropRinging h).ringQueue = s.ringQueue ∧
    (s.dropRinging h).ringList = s.ringList.filter (fun r => !decide (r.handle = h)) ∧
    (s.dropRinging h).committed = s.committed - ((s.ringList.filter (fun r => decide (r.handle = h))).map (·.load)).sum ∧
    (s.dropRinging h).available = s.available ∧ (s.dropRinging h).sense = s.sense ∧ (s.dropRinging h).bus = s.bus ∧
    (s.dropRinging h).sweepPos = s.sweepPos ∧ (s.dropRinging h).sweepLeft = s.sweepLeft ∧
    (s.dropRinging h).link = s.link ∧ (s.dropRinging h).framer = s.framer ∧ (s.dropRinging h).lossHold = s.lossHold ∧
    (s.dropRinging h).alignHold = s.alignHold ∧ (s.dropRinging h).resetLine = s.resetLine ∧
    (s.dropRinging h).pendingRestart = s.pendingRestart ∧ (s.dropRinging h).assembly = s.assembly ∧
    (s.dropRinging h).engine = s.engine ∧ (s.dropRinging h).params = s.params ∧
    (s.dropRinging h).counters = s.counters ∧ (s.dropRinging h).out = s.out := by
  and_intros <;> rfl

@[simp] theorem State.leavePool_fields (n : SlotNo) :
    (s.leavePool n).pending = s.pending ∧ (s.leavePool n).draws = s.draws ∧ (s.leavePool n).ports = s.ports ∧
    (s.leavePool n).lines = s.lines ∧ (s.leavePool n).keyIndex = s.keyIndex ∧
    (s.leavePool n).keyPrefix = s.keyPrefix ∧ (s.leavePool n).cursor = s.cursor ∧
    (s.leavePool n).advance = s.advance ∧ (s.leavePool n).slots = s.slots ∧
    (s.leavePool n).pool = s.pool.filter (fun m => !decide (m = n)) ∧ (s.leavePool n).entries = s.entries ∧
    (s.leavePool n).nextHandle = s.nextHandle ∧ (s.leavePool n).owq = s.owq ∧ (s.leavePool n).cadences = s.cadences ∧
    (s.leavePool n).ringQueue = s.ringQueue ∧ (s.leavePool n).ringList = s.ringList ∧
    (s.leavePool n).committed = s.committed ∧ (s.leavePool n).available = s.available ∧
    (s.leavePool n).sense = s.sense ∧ (s.leavePool n).bus = s.bus ∧ (s.leavePool n).sweepPos = s.sweepPos ∧
    (s.leavePool n).sweepLeft = s.sweepLeft ∧ (s.leavePool n).link = s.link ∧ (s.leavePool n).framer = s.framer ∧
    (s.leavePool n).lossHold = s.lossHold ∧ (s.leavePool n).alignHold = s.alignHold ∧
    (s.leavePool n).resetLine = s.resetLine ∧ (s.leavePool n).pendingRestart = s.pendingRestart ∧
    (s.leavePool n).assembly = s.assembly ∧ (s.leavePool n).engine = s.engine ∧ (s.leavePool n).params = s.params ∧
    (s.leavePool n).counters = s.counters ∧ (s.leavePool n).out = s.out := by
  and_intros <;> rfl

@[simp] theorem State.suspect_fields (n : SlotNo) :
    (s.suspect n).pending = s.pending ∧ (s.suspect n).draws = s.draws ∧ (s.suspect n).ports = s.ports ∧
    (s.suspect n).lines = s.lines ∧ (s.suspect n).keyIndex = s.keyIndex ∧ (s.suspect n).keyPrefix = s.keyPrefix ∧
    (s.suspect n).cursor = s.cursor ∧ (s.suspect n).advance = s.advance ∧
    (s.suspect n).slots = s.slots.set n Slot.outOfService ∧
    (s.suspect n).pool = s.pool.filter (fun m => !decide (m = n)) ∧ (s.suspect n).entries = s.entries ∧
    (s.suspect n).nextHandle = s.nextHandle ∧ (s.suspect n).owq = s.owq ∧ (s.suspect n).cadences = s.cadences ∧
    (s.suspect n).ringQueue = s.ringQueue ∧ (s.suspect n).ringList = s.ringList ∧
    (s.suspect n).committed = s.committed ∧ (s.suspect n).available = s.available ∧ (s.suspect n).sense = s.sense ∧
    (s.suspect n).bus = s.bus ∧ (s.suspect n).sweepPos = s.sweepPos ∧ (s.suspect n).sweepLeft = s.sweepLeft ∧
    (s.suspect n).link = s.link ∧ (s.suspect n).framer = s.framer ∧ (s.suspect n).lossHold = s.lossHold ∧
    (s.suspect n).alignHold = s.alignHold ∧ (s.suspect n).resetLine = s.resetLine ∧
    (s.suspect n).pendingRestart = s.pendingRestart ∧ (s.suspect n).assembly = s.assembly ∧
    (s.suspect n).engine = s.engine ∧ (s.suspect n).params = s.params ∧ (s.suspect n).counters = s.counters ∧
    (s.suspect n).out = s.out := by
  and_intros <;> rfl

@[simp] theorem State.freeSlot_fields (n : SlotNo) :
    (s.freeSlot n).pending = s.pending ∧ (s.freeSlot n).draws = s.draws ∧ (s.freeSlot n).ports = s.ports ∧
    (s.freeSlot n).lines = s.lines ∧ (s.freeSlot n).keyIndex = s.keyIndex ∧ (s.freeSlot n).keyPrefix = s.keyPrefix ∧
    (s.freeSlot n).cursor = s.cursor ∧ (s.freeSlot n).advance = s.advance ∧
    (s.freeSlot n).slots = s.slots.set n Slot.initial ∧ (s.freeSlot n).pool = s.pool ++ [n] ∧
    (s.freeSlot n).entries = s.entries ∧ (s.freeSlot n).nextHandle = s.nextHandle ∧ (s.freeSlot n).owq = s.owq ∧
    (s.freeSlot n).cadences = s.cadences ∧ (s.freeSlot n).ringQueue = s.ringQueue ∧
    (s.freeSlot n).ringList = s.ringList ∧ (s.freeSlot n).committed = s.committed ∧
    (s.freeSlot n).available = s.available ∧ (s.freeSlot n).sense = s.sense ∧ (s.freeSlot n).bus = s.bus ∧
    (s.freeSlot n).sweepPos = s.sweepPos ∧ (s.freeSlot n).sweepLeft = s.sweepLeft ∧ (s.freeSlot n).link = s.link ∧
    (s.freeSlot n).framer = s.framer ∧ (s.freeSlot n).lossHold = s.lossHold ∧
    (s.freeSlot n).alignHold = s.alignHold ∧ (s.freeSlot n).resetLine = s.resetLine ∧
    (s.freeSlot n).pendingRestart = s.pendingRestart ∧ (s.freeSlot n).assembly = s.assembly ∧
    (s.freeSlot n).engine = s.engine ∧ (s.freeSlot n).params = s.params ∧ (s.freeSlot n).counters = s.counters ∧
    (s.freeSlot n).out = s.out := by
  and_intros <;> rfl

@[simp] theorem State.blockSlot_fields (n : SlotNo) :
    (s.blockSlot n).pending = s.pending ∧ (s.blockSlot n).draws = s.draws ∧ (s.blockSlot n).ports = s.ports ∧
    (s.blockSlot n).lines = s.lines ∧ (s.blockSlot n).keyIndex = s.keyIndex ∧
    (s.blockSlot n).keyPrefix = s.keyPrefix ∧ (s.blockSlot n).cursor = s.cursor ∧
    (s.blockSlot n).advance = s.advance ∧
    (s.blockSlot n).slots = s.slots.set n { state := .blocked, handle := 0, blockPending := false, damaged := false } ∧
    (s.blockSlot n).pool = s.pool ∧ (s.blockSlot n).entries = s.entries ∧ (s.blockSlot n).nextHandle = s.nextHandle ∧
    (s.blockSlot n).owq = s.owq ∧ (s.blockSlot n).cadences = s.cadences ∧ (s.blockSlot n).ringQueue = s.ringQueue ∧
    (s.blockSlot n).ringList = s.ringList ∧ (s.blockSlot n).committed = s.committed ∧
    (s.blockSlot n).available = s.available ∧ (s.blockSlot n).sense = s.sense ∧ (s.blockSlot n).bus = s.bus ∧
    (s.blockSlot n).sweepPos = s.sweepPos ∧ (s.blockSlot n).sweepLeft = s.sweepLeft ∧ (s.blockSlot n).link = s.link ∧
    (s.blockSlot n).framer = s.framer ∧ (s.blockSlot n).lossHold = s.lossHold ∧
    (s.blockSlot n).alignHold = s.alignHold ∧ (s.blockSlot n).resetLine = s.resetLine ∧
    (s.blockSlot n).pendingRestart = s.pendingRestart ∧ (s.blockSlot n).assembly = s.assembly ∧
    (s.blockSlot n).engine = s.engine ∧ (s.blockSlot n).params = s.params ∧ (s.blockSlot n).counters = s.counters ∧
    (s.blockSlot n).out = s.out := by
  and_intros <;> rfl

@[simp] theorem State.writeLine_fields (p : PortNo) (r : LineRecord) :
    (s.writeLine p r).pending = s.pending ∧ (s.writeLine p r).draws = s.draws ∧ (s.writeLine p r).ports = s.ports ∧
    (s.writeLine p r).lines = s.lines.set p { r with damaged := false, withdrawn := false } ∧
    (s.writeLine p r).keyIndex = s.keyIndex ∧ (s.writeLine p r).keyPrefix = s.keyPrefix ∧
    (s.writeLine p r).cursor = s.cursor ∧ (s.writeLine p r).advance = s.advance ∧ (s.writeLine p r).slots = s.slots ∧
    (s.writeLine p r).pool = s.pool ∧ (s.writeLine p r).entries = s.entries ∧
    (s.writeLine p r).nextHandle = s.nextHandle ∧ (s.writeLine p r).owq = s.owq ∧
    (s.writeLine p r).cadences = s.cadences ∧ (s.writeLine p r).ringQueue = s.ringQueue ∧
    (s.writeLine p r).ringList = s.ringList ∧ (s.writeLine p r).committed = s.committed ∧
    (s.writeLine p r).available = s.available ∧ (s.writeLine p r).sense = s.sense ∧ (s.writeLine p r).bus = s.bus ∧
    (s.writeLine p r).sweepPos = s.sweepPos ∧ (s.writeLine p r).sweepLeft = s.sweepLeft ∧
    (s.writeLine p r).link = s.link ∧ (s.writeLine p r).framer = s.framer ∧ (s.writeLine p r).lossHold = s.lossHold ∧
    (s.writeLine p r).alignHold = s.alignHold ∧ (s.writeLine p r).resetLine = s.resetLine ∧
    (s.writeLine p r).pendingRestart = s.pendingRestart ∧ (s.writeLine p r).assembly = s.assembly ∧
    (s.writeLine p r).engine = s.engine ∧ (s.writeLine p r).params = s.params ∧
    (s.writeLine p r).counters = s.counters ∧ (s.writeLine p r).out = s.out := by
  and_intros <;> rfl

@[simp] theorem State.writeEntry_fields (e : EntryNo) (b : Option Binding) :
    (s.writeEntry e b).pending = s.pending ∧ (s.writeEntry e b).draws = s.draws ∧
    (s.writeEntry e b).ports = s.ports ∧ (s.writeEntry e b).lines = s.lines ∧
    (s.writeEntry e b).keyIndex = s.keyIndex ∧ (s.writeEntry e b).keyPrefix = s.keyPrefix ∧
    (s.writeEntry e b).cursor = s.cursor ∧ (s.writeEntry e b).advance = s.advance ∧
    (s.writeEntry e b).slots = s.slots ∧ (s.writeEntry e b).pool = s.pool ∧
    (s.writeEntry e b).entries = s.entries.set e { binding := b, damaged := false } ∧
    (s.writeEntry e b).nextHandle = s.nextHandle ∧ (s.writeEntry e b).owq = s.owq ∧
    (s.writeEntry e b).cadences = s.cadences ∧ (s.writeEntry e b).ringQueue = s.ringQueue ∧
    (s.writeEntry e b).ringList = s.ringList ∧ (s.writeEntry e b).committed = s.committed ∧
    (s.writeEntry e b).available = s.available ∧ (s.writeEntry e b).sense = s.sense ∧
    (s.writeEntry e b).bus = s.bus ∧ (s.writeEntry e b).sweepPos = s.sweepPos ∧
    (s.writeEntry e b).sweepLeft = s.sweepLeft ∧ (s.writeEntry e b).link = s.link ∧
    (s.writeEntry e b).framer = s.framer ∧ (s.writeEntry e b).lossHold = s.lossHold ∧
    (s.writeEntry e b).alignHold = s.alignHold ∧ (s.writeEntry e b).resetLine = s.resetLine ∧
    (s.writeEntry e b).pendingRestart = s.pendingRestart ∧ (s.writeEntry e b).assembly = s.assembly ∧
    (s.writeEntry e b).engine = s.engine ∧ (s.writeEntry e b).params = s.params ∧
    (s.writeEntry e b).counters = s.counters ∧ (s.writeEntry e b).out = s.out := by
  and_intros <;> rfl

@[simp] theorem State.place_fields (p : PortNo) (st : SupState) :
    (s.place p st).pending = s.pending ∧ (s.place p st).draws = s.draws ∧
    (s.place p st).ports = s.ports.set p ((s.port p).place st) ∧ (s.place p st).lines = s.lines ∧
    (s.place p st).keyIndex = s.keyIndex ∧ (s.place p st).keyPrefix = s.keyPrefix ∧
    (s.place p st).cursor = s.cursor ∧ (s.place p st).advance = s.advance ∧ (s.place p st).slots = s.slots ∧
    (s.place p st).pool = s.pool ∧ (s.place p st).entries = s.entries ∧ (s.place p st).nextHandle = s.nextHandle ∧
    (s.place p st).owq = s.owq ∧ (s.place p st).cadences = s.cadences ∧ (s.place p st).ringQueue = s.ringQueue ∧
    (s.place p st).ringList = s.ringList ∧ (s.place p st).committed = s.committed ∧
    (s.place p st).available = s.available ∧ (s.place p st).sense = s.sense ∧ (s.place p st).bus = s.bus ∧
    (s.place p st).sweepPos = s.sweepPos ∧ (s.place p st).sweepLeft = s.sweepLeft ∧ (s.place p st).link = s.link ∧
    (s.place p st).framer = s.framer ∧ (s.place p st).lossHold = s.lossHold ∧
    (s.place p st).alignHold = s.alignHold ∧ (s.place p st).resetLine = s.resetLine ∧
    (s.place p st).pendingRestart = s.pendingRestart ∧ (s.place p st).assembly = s.assembly ∧
    (s.place p st).engine = s.engine ∧ (s.place p st).params = s.params ∧ (s.place p st).counters = s.counters ∧
    (s.place p st).out = s.out := by
  and_intros <;> rfl

@[simp] theorem State.toIdle_fields (p : PortNo) :
    (s.toIdle p).pending = s.pending ∧ (s.toIdle p).draws = s.draws ∧
    (s.toIdle p).ports = s.ports.set p (s.port p).toIdle ∧ (s.toIdle p).lines = s.lines ∧
    (s.toIdle p).keyIndex = s.keyIndex ∧ (s.toIdle p).keyPrefix = s.keyPrefix ∧ (s.toIdle p).cursor = s.cursor ∧
    (s.toIdle p).advance = s.advance ∧ (s.toIdle p).slots = s.slots ∧ (s.toIdle p).pool = s.pool ∧
    (s.toIdle p).entries = s.entries ∧ (s.toIdle p).nextHandle = s.nextHandle ∧ (s.toIdle p).owq = s.owq ∧
    (s.toIdle p).cadences = s.cadences ∧ (s.toIdle p).ringQueue = s.ringQueue ∧ (s.toIdle p).ringList = s.ringList ∧
    (s.toIdle p).committed = s.committed ∧ (s.toIdle p).available = s.available ∧ (s.toIdle p).sense = s.sense ∧
    (s.toIdle p).bus = s.bus ∧ (s.toIdle p).sweepPos = s.sweepPos ∧ (s.toIdle p).sweepLeft = s.sweepLeft ∧
    (s.toIdle p).link = s.link ∧ (s.toIdle p).framer = s.framer ∧ (s.toIdle p).lossHold = s.lossHold ∧
    (s.toIdle p).alignHold = s.alignHold ∧ (s.toIdle p).resetLine = s.resetLine ∧
    (s.toIdle p).pendingRestart = s.pendingRestart ∧ (s.toIdle p).assembly = s.assembly ∧
    (s.toIdle p).engine = s.engine ∧ (s.toIdle p).params = s.params ∧ (s.toIdle p).counters = s.counters ∧
    (s.toIdle p).out = s.out := by
  and_intros <;> rfl

@[simp] theorem State.mark_fields (p : PortNo) (b : Bool) :
    (s.mark p b).pending = s.pending ∧ (s.mark p b).draws = s.draws ∧
    (s.mark p b).ports = s.ports.set p { s.port p with parkPending := b } ∧ (s.mark p b).lines = s.lines ∧
    (s.mark p b).keyIndex = s.keyIndex ∧ (s.mark p b).keyPrefix = s.keyPrefix ∧ (s.mark p b).cursor = s.cursor ∧
    (s.mark p b).advance = s.advance ∧ (s.mark p b).slots = s.slots ∧ (s.mark p b).pool = s.pool ∧
    (s.mark p b).entries = s.entries ∧ (s.mark p b).nextHandle = s.nextHandle ∧ (s.mark p b).owq = s.owq ∧
    (s.mark p b).cadences = s.cadences ∧ (s.mark p b).ringQueue = s.ringQueue ∧ (s.mark p b).ringList = s.ringList ∧
    (s.mark p b).committed = s.committed ∧ (s.mark p b).available = s.available ∧ (s.mark p b).sense = s.sense ∧
    (s.mark p b).bus = s.bus ∧ (s.mark p b).sweepPos = s.sweepPos ∧ (s.mark p b).sweepLeft = s.sweepLeft ∧
    (s.mark p b).link = s.link ∧ (s.mark p b).framer = s.framer ∧ (s.mark p b).lossHold = s.lossHold ∧
    (s.mark p b).alignHold = s.alignHold ∧ (s.mark p b).resetLine = s.resetLine ∧
    (s.mark p b).pendingRestart = s.pendingRestart ∧ (s.mark p b).assembly = s.assembly ∧
    (s.mark p b).engine = s.engine ∧ (s.mark p b).params = s.params ∧ (s.mark p b).counters = s.counters ∧
    (s.mark p b).out = s.out := by
  and_intros <;> rfl

@[simp] theorem State.stopInjector_fields (p : PortNo) :
    (s.stopInjector p).pending = s.pending ∧ (s.stopInjector p).draws = s.draws ∧
    (s.stopInjector p).ports = s.ports.set p { s.port p with injector := .idle } ∧
    (s.stopInjector p).lines = s.lines ∧ (s.stopInjector p).keyIndex = s.keyIndex ∧
    (s.stopInjector p).keyPrefix = s.keyPrefix ∧ (s.stopInjector p).cursor = s.cursor ∧
    (s.stopInjector p).advance = s.advance ∧ (s.stopInjector p).slots = s.slots ∧ (s.stopInjector p).pool = s.pool ∧
    (s.stopInjector p).entries = s.entries ∧ (s.stopInjector p).nextHandle = s.nextHandle ∧
    (s.stopInjector p).owq = s.owq ∧ (s.stopInjector p).cadences = s.cadences ∧
    (s.stopInjector p).ringQueue = s.ringQueue ∧ (s.stopInjector p).ringList = s.ringList ∧
    (s.stopInjector p).committed = s.committed ∧ (s.stopInjector p).available = s.available ∧
    (s.stopInjector p).sense = s.sense ∧ (s.stopInjector p).bus = s.bus ∧ (s.stopInjector p).sweepPos = s.sweepPos ∧
    (s.stopInjector p).sweepLeft = s.sweepLeft ∧ (s.stopInjector p).link = s.link ∧
    (s.stopInjector p).framer = s.framer ∧ (s.stopInjector p).lossHold = s.lossHold ∧
    (s.stopInjector p).alignHold = s.alignHold ∧ (s.stopInjector p).resetLine = s.resetLine ∧
    (s.stopInjector p).pendingRestart = s.pendingRestart ∧ (s.stopInjector p).assembly = s.assembly ∧
    (s.stopInjector p).engine = s.engine ∧ (s.stopInjector p).params = s.params ∧
    (s.stopInjector p).counters = s.counters ∧ (s.stopInjector p).out = s.out := by
  and_intros <;> rfl

@[simp] theorem State.clearCount_fields (p : PortNo) :
    (s.clearCount p).pending = s.pending ∧ (s.clearCount p).draws = s.draws ∧
    (s.clearCount p).ports = s.ports.set p { s.port p with pulses := 0, makeTimer := none } ∧
    (s.clearCount p).lines = s.lines ∧ (s.clearCount p).keyIndex = s.keyIndex ∧
    (s.clearCount p).keyPrefix = s.keyPrefix ∧ (s.clearCount p).cursor = s.cursor ∧
    (s.clearCount p).advance = s.advance ∧ (s.clearCount p).slots = s.slots ∧ (s.clearCount p).pool = s.pool ∧
    (s.clearCount p).entries = s.entries ∧ (s.clearCount p).nextHandle = s.nextHandle ∧
    (s.clearCount p).owq = s.owq ∧ (s.clearCount p).cadences = s.cadences ∧
    (s.clearCount p).ringQueue = s.ringQueue ∧ (s.clearCount p).ringList = s.ringList ∧
    (s.clearCount p).committed = s.committed ∧ (s.clearCount p).available = s.available ∧
    (s.clearCount p).sense = s.sense ∧ (s.clearCount p).bus = s.bus ∧ (s.clearCount p).sweepPos = s.sweepPos ∧
    (s.clearCount p).sweepLeft = s.sweepLeft ∧ (s.clearCount p).link = s.link ∧ (s.clearCount p).framer = s.framer ∧
    (s.clearCount p).lossHold = s.lossHold ∧ (s.clearCount p).alignHold = s.alignHold ∧
    (s.clearCount p).resetLine = s.resetLine ∧ (s.clearCount p).pendingRestart = s.pendingRestart ∧
    (s.clearCount p).assembly = s.assembly ∧ (s.clearCount p).engine = s.engine ∧
    (s.clearCount p).params = s.params ∧ (s.clearCount p).counters = s.counters ∧ (s.clearCount p).out = s.out := by
  and_intros <;> rfl

@[simp] theorem State.setLoop_fields (p : PortNo) (b : Bool) :
    (s.setLoop p b).pending = s.pending ∧ (s.setLoop p b).draws = s.draws ∧
    (s.setLoop p b).ports = s.ports.set p { s.port p with lineClosed := b } ∧ (s.setLoop p b).lines = s.lines ∧
    (s.setLoop p b).keyIndex = s.keyIndex ∧ (s.setLoop p b).keyPrefix = s.keyPrefix ∧
    (s.setLoop p b).cursor = s.cursor ∧ (s.setLoop p b).advance = s.advance ∧ (s.setLoop p b).slots = s.slots ∧
    (s.setLoop p b).pool = s.pool ∧ (s.setLoop p b).entries = s.entries ∧ (s.setLoop p b).nextHandle = s.nextHandle ∧
    (s.setLoop p b).owq = s.owq ∧ (s.setLoop p b).cadences = s.cadences ∧ (s.setLoop p b).ringQueue = s.ringQueue ∧
    (s.setLoop p b).ringList = s.ringList ∧ (s.setLoop p b).committed = s.committed ∧
    (s.setLoop p b).available = s.available ∧ (s.setLoop p b).sense = s.sense ∧ (s.setLoop p b).bus = s.bus ∧
    (s.setLoop p b).sweepPos = s.sweepPos ∧ (s.setLoop p b).sweepLeft = s.sweepLeft ∧ (s.setLoop p b).link = s.link ∧
    (s.setLoop p b).framer = s.framer ∧ (s.setLoop p b).lossHold = s.lossHold ∧
    (s.setLoop p b).alignHold = s.alignHold ∧ (s.setLoop p b).resetLine = s.resetLine ∧
    (s.setLoop p b).pendingRestart = s.pendingRestart ∧ (s.setLoop p b).assembly = s.assembly ∧
    (s.setLoop p b).engine = s.engine ∧ (s.setLoop p b).params = s.params ∧ (s.setLoop p b).counters = s.counters ∧
    (s.setLoop p b).out = s.out := by
  and_intros <;> rfl

@[simp] theorem State.vacate_fields (p : PortNo) :
    (s.vacate p).pending = s.pending ∧ (s.vacate p).draws = s.draws ∧ (s.vacate p).ports = s.ports ∧
    (s.vacate p).lines = s.lines.set p { (s.line p).ceased with damaged := false, withdrawn := false } ∧
    (s.vacate p).keyIndex = s.keyIndex.set p none ∧ (s.vacate p).keyPrefix = s.keyPrefix ∧
    (s.vacate p).cursor = s.cursor ∧ (s.vacate p).advance = s.advance ∧ (s.vacate p).slots = s.slots ∧
    (s.vacate p).pool = s.pool ∧ (s.vacate p).entries = s.entries ∧ (s.vacate p).nextHandle = s.nextHandle ∧
    (s.vacate p).owq = s.owq ∧ (s.vacate p).cadences = s.cadences ∧ (s.vacate p).ringQueue = s.ringQueue ∧
    (s.vacate p).ringList = s.ringList ∧ (s.vacate p).committed = s.committed ∧
    (s.vacate p).available = s.available ∧ (s.vacate p).sense = s.sense ∧ (s.vacate p).bus = s.bus ∧
    (s.vacate p).sweepPos = s.sweepPos ∧ (s.vacate p).sweepLeft = s.sweepLeft ∧ (s.vacate p).link = s.link ∧
    (s.vacate p).framer = s.framer ∧ (s.vacate p).lossHold = s.lossHold ∧ (s.vacate p).alignHold = s.alignHold ∧
    (s.vacate p).resetLine = s.resetLine ∧ (s.vacate p).pendingRestart = s.pendingRestart ∧
    (s.vacate p).assembly = s.assembly ∧ (s.vacate p).engine = s.engine ∧ (s.vacate p).params = s.params ∧
    (s.vacate p).counters = s.counters ∧ (s.vacate p).out = s.out := by
  and_intros <;> rfl

@[simp] theorem State.withdraw_fields (p : PortNo) :
    (s.withdraw p).pending = s.pending ∧ (s.withdraw p).draws = s.draws ∧ (s.withdraw p).ports = s.ports ∧
    (s.withdraw p).lines = s.lines.set p { s.line p with withdrawn := true } ∧
    (s.withdraw p).keyIndex = s.keyIndex.set p none ∧ (s.withdraw p).keyPrefix = s.keyPrefix ∧
    (s.withdraw p).cursor = s.cursor ∧ (s.withdraw p).advance = s.advance ∧ (s.withdraw p).slots = s.slots ∧
    (s.withdraw p).pool = s.pool ∧ (s.withdraw p).entries = s.entries ∧ (s.withdraw p).nextHandle = s.nextHandle ∧
    (s.withdraw p).owq = s.owq.filter (fun w => !decide (w.port = p)) ∧ (s.withdraw p).cadences = s.cadences ∧
    (s.withdraw p).ringQueue = s.ringQueue ∧ (s.withdraw p).ringList = s.ringList ∧
    (s.withdraw p).committed = s.committed ∧ (s.withdraw p).available = s.available ∧
    (s.withdraw p).sense = s.sense ∧ (s.withdraw p).bus = s.bus ∧ (s.withdraw p).sweepPos = s.sweepPos ∧
    (s.withdraw p).sweepLeft = s.sweepLeft ∧ (s.withdraw p).link = s.link ∧ (s.withdraw p).framer = s.framer ∧
    (s.withdraw p).lossHold = s.lossHold ∧ (s.withdraw p).alignHold = s.alignHold ∧
    (s.withdraw p).resetLine = s.resetLine ∧ (s.withdraw p).pendingRestart = s.pendingRestart ∧
    (s.withdraw p).assembly = s.assembly ∧ (s.withdraw p).engine = s.engine ∧ (s.withdraw p).params = s.params ∧
    (s.withdraw p).counters = s.counters ∧ (s.withdraw p).out = s.out := by
  and_intros <;> rfl

@[simp] theorem State.draw_fields :
    (s.draw).pending = s.pending ∧ (s.draw).draws = s.draws + 1 ∧ (s.draw).ports = s.ports ∧
    (s.draw).lines = s.lines ∧ (s.draw).keyIndex = s.keyIndex ∧ (s.draw).keyPrefix = s.keyPrefix ∧
    (s.draw).cursor = s.cursor ∧ (s.draw).advance = s.advance ∧ (s.draw).slots = s.slots ∧ (s.draw).pool = s.pool ∧
    (s.draw).entries = s.entries ∧ (s.draw).nextHandle = s.nextHandle ∧ (s.draw).owq = s.owq ∧
    (s.draw).cadences = s.cadences ∧ (s.draw).ringQueue = s.ringQueue ∧ (s.draw).ringList = s.ringList ∧
    (s.draw).committed = s.committed ∧ (s.draw).available = s.available ∧ (s.draw).sense = s.sense ∧
    (s.draw).bus = s.bus ∧ (s.draw).sweepPos = s.sweepPos ∧ (s.draw).sweepLeft = s.sweepLeft ∧
    (s.draw).link = s.link ∧ (s.draw).framer = s.framer ∧ (s.draw).lossHold = s.lossHold ∧
    (s.draw).alignHold = s.alignHold ∧ (s.draw).resetLine = s.resetLine ∧
    (s.draw).pendingRestart = s.pendingRestart ∧ (s.draw).assembly = s.assembly ∧ (s.draw).engine = s.engine ∧
    (s.draw).params = s.params ∧ (s.draw).counters = s.counters ∧ (s.draw).out = s.out := by
  and_intros <;> rfl

@[simp] theorem State.settle_fields (p : PortNo) :
    (s.settle p).pending = s.pending ∧ (s.settle p).draws = s.draws ∧ (s.settle p).lines = s.lines ∧
    (s.settle p).keyIndex = s.keyIndex ∧ (s.settle p).keyPrefix = s.keyPrefix ∧ (s.settle p).cursor = s.cursor ∧
    (s.settle p).advance = s.advance ∧ (s.settle p).slots = s.slots ∧ (s.settle p).pool = s.pool ∧
    (s.settle p).entries = s.entries ∧ (s.settle p).nextHandle = s.nextHandle ∧ (s.settle p).owq = s.owq ∧
    (s.settle p).cadences = s.cadences ∧ (s.settle p).ringQueue = s.ringQueue ∧ (s.settle p).ringList = s.ringList ∧
    (s.settle p).committed = s.committed ∧ (s.settle p).available = s.available ∧ (s.settle p).sense = s.sense ∧
    (s.settle p).bus = s.bus ∧ (s.settle p).sweepPos = s.sweepPos ∧ (s.settle p).sweepLeft = s.sweepLeft ∧
    (s.settle p).link = s.link ∧ (s.settle p).framer = s.framer ∧ (s.settle p).lossHold = s.lossHold ∧
    (s.settle p).alignHold = s.alignHold ∧ (s.settle p).resetLine = s.resetLine ∧
    (s.settle p).pendingRestart = s.pendingRestart ∧ (s.settle p).assembly = s.assembly ∧
    (s.settle p).engine = s.engine ∧ (s.settle p).params = s.params ∧ (s.settle p).counters = s.counters ∧
    (s.settle p).out = s.out := by
  unfold State.settle
  split <;> simp

@[simp] theorem State.quarantine_fields (p : PortNo) :
    (s.quarantine p).pending = s.pending ∧ (s.quarantine p).draws = s.draws ∧ (s.quarantine p).lines = s.lines ∧
    (s.quarantine p).keyIndex = s.keyIndex ∧ (s.quarantine p).keyPrefix = s.keyPrefix ∧
    (s.quarantine p).cursor = s.cursor ∧ (s.quarantine p).advance = s.advance ∧ (s.quarantine p).slots = s.slots ∧
    (s.quarantine p).pool = s.pool ∧ (s.quarantine p).entries = s.entries ∧
    (s.quarantine p).nextHandle = s.nextHandle ∧ (s.quarantine p).owq = s.owq ∧
    (s.quarantine p).cadences = s.cadences ∧ (s.quarantine p).ringQueue = s.ringQueue ∧
    (s.quarantine p).ringList = s.ringList ∧ (s.quarantine p).committed = s.committed ∧
    (s.quarantine p).available = s.available ∧ (s.quarantine p).sense = s.sense ∧ (s.quarantine p).bus = s.bus ∧
    (s.quarantine p).sweepPos = s.sweepPos ∧ (s.quarantine p).sweepLeft = s.sweepLeft ∧
    (s.quarantine p).link = s.link ∧ (s.quarantine p).framer = s.framer ∧ (s.quarantine p).lossHold = s.lossHold ∧
    (s.quarantine p).alignHold = s.alignHold ∧ (s.quarantine p).resetLine = s.resetLine ∧
    (s.quarantine p).pendingRestart = s.pendingRestart ∧ (s.quarantine p).assembly = s.assembly ∧
    (s.quarantine p).engine = s.engine ∧ (s.quarantine p).params = s.params ∧
    (s.quarantine p).counters = s.counters ∧ (s.quarantine p).out = s.out := by
  unfold State.quarantine
  split <;> simp

@[simp] theorem State.returnGoodSlot_fields (n : SlotNo) :
    (s.returnGoodSlot n).pending = s.pending ∧ (s.returnGoodSlot n).draws = s.draws ∧
    (s.returnGoodSlot n).ports = s.ports ∧ (s.returnGoodSlot n).lines = s.lines ∧
    (s.returnGoodSlot n).keyIndex = s.keyIndex ∧ (s.returnGoodSlot n).keyPrefix = s.keyPrefix ∧
    (s.returnGoodSlot n).cursor = s.cursor ∧ (s.returnGoodSlot n).advance = s.advance ∧
    (s.returnGoodSlot n).entries = s.entries ∧ (s.returnGoodSlot n).nextHandle = s.nextHandle ∧
    (s.returnGoodSlot n).owq = s.owq ∧ (s.returnGoodSlot n).cadences = s.cadences ∧
    (s.returnGoodSlot n).ringQueue = s.ringQueue ∧ (s.returnGoodSlot n).ringList = s.ringList ∧
    (s.returnGoodSlot n).committed = s.committed ∧ (s.returnGoodSlot n).available = s.available ∧
    (s.returnGoodSlot n).sense = s.sense ∧ (s.returnGoodSlot n).bus = s.bus ∧
    (s.returnGoodSlot n).sweepPos = s.sweepPos ∧ (s.returnGoodSlot n).sweepLeft = s.sweepLeft ∧
    (s.returnGoodSlot n).link = s.link ∧ (s.returnGoodSlot n).framer = s.framer ∧
    (s.returnGoodSlot n).lossHold = s.lossHold ∧ (s.returnGoodSlot n).alignHold = s.alignHold ∧
    (s.returnGoodSlot n).resetLine = s.resetLine ∧ (s.returnGoodSlot n).pendingRestart = s.pendingRestart ∧
    (s.returnGoodSlot n).assembly = s.assembly ∧ (s.returnGoodSlot n).engine = s.engine ∧
    (s.returnGoodSlot n).params = s.params ∧ (s.returnGoodSlot n).counters = s.counters ∧
    (s.returnGoodSlot n).out = s.out := by
  unfold State.returnGoodSlot
  split <;> simp

/-! ## Reading back what was written -/

@[simp] theorem State.port_setPort (p r : PortNo) (q : Port) :
    (s.setPort p q).port r = if r = p then q else s.port r := by
  unfold State.port State.setPort
  simp [Vector.getElem_set, Fin.ext_iff, eq_comm]

@[simp] theorem State.line_setLine (p q : PortNo) (r : LineRecord) :
    (s.setLine p r).line q = if q = p then r else s.line q := by
  unfold State.line State.setLine
  simp [Vector.getElem_set, Fin.ext_iff, eq_comm]

@[simp] theorem State.slot_setSlot (n m : SlotNo) (r : Slot) :
    (s.setSlot n r).slot m = if m = n then r else s.slot m := by
  unfold State.slot State.setSlot
  simp [Vector.getElem_set, Fin.ext_iff, eq_comm]

@[simp] theorem State.entry_setEntry (e f : EntryNo) (r : Entry) :
    (s.setEntry e r).entry f = if f = e then r else s.entry f := by
  unfold State.entry State.setEntry
  simp [Vector.getElem_set, Fin.ext_iff, eq_comm]

@[simp] theorem State.indexKey_setIndex (p q : PortNo) (k : Option Nat) :
    (s.setIndex p k).indexKey q = if q = p then k else s.indexKey q := by
  unfold State.indexKey State.setIndex
  simp [Vector.getElem_set, Fin.ext_iff, eq_comm]

/-- Two states with the same ports read alike at every port. The four lemmas after it say the same of the other
tables. -/
theorem State.port_congr {s t : State} (h : t.ports = s.ports) (p : PortNo) : t.port p = s.port p := by
  unfold State.port
  rw [h]

theorem State.line_congr {s t : State} (h : t.lines = s.lines) (p : PortNo) : t.line p = s.line p := by
  unfold State.line
  rw [h]

theorem State.slot_congr {s t : State} (h : t.slots = s.slots) (n : SlotNo) : t.slot n = s.slot n := by
  unfold State.slot
  rw [h]

theorem State.entry_congr {s t : State} (h : t.entries = s.entries) (e : EntryNo) : t.entry e = s.entry e := by
  unfold State.entry
  rw [h]

theorem State.indexKey_congr {s t : State} (h : t.keyIndex = s.keyIndex) (p : PortNo) :
    t.indexKey p = s.indexKey p := by
  unfold State.indexKey
  rw [h]

/-- Which binding a search finds depends on the entries alone. -/
theorem State.findBinding_congr {s t : State} (h : t.entries = s.entries) (f : Binding → Bool) :
    t.findBinding f = s.findBinding f := by
  unfold State.findBinding State.entry
  rw [h]

theorem State.byHandle_congr {s t : State} (h : t.entries = s.entries) (n : Nat) : t.byHandle n = s.byHandle n :=
  State.findBinding_congr h _

theorem State.call_congr {s t : State} (h : t.entries = s.entries) (p : PortNo) : t.call p = s.call p :=
  State.findBinding_congr h _

end Sys2Proof.Machine
end

