-- ==== Sys2Proof/Laws/Frame.lean ====
section
/-!
SUPPORT. Laws/Frame.lean: what the shared operations leave alone. `State.still` gathers the fields that no call, slot,
queue or failure operation writes; one lemma for each operation says that it keeps them, so a proof about a command cites
it and unfolds no operation.
-/
namespace Sys2Proof.Machine

/-- The fields that the operations on calls, slots, queues and failures never write. -/
structure Still where
  pending : List Instr
  draws : Nat
  keyPrefix : Nat
  cursor : PortNo
  advance : AdvanceMode
  cadences : Vector (List Nat) 4
  available : Nat
  sense : Sense
  bus : Option TestHold
  sweepPos : SweepPos
  sweepLeft : Nat
  link : Link
  framer : Framer
  lossHold : Option Nat
  alignHold : Option Nat
  resetLine : ResetLine
  pendingRestart : PendingRestart
  assembly : List Nat
  engine : Engine
  params : Params

def State.still (s : State) : Still :=
  { pending := s.pending, draws := s.draws, keyPrefix := s.keyPrefix, cursor := s.cursor, advance := s.advance,
    cadences := s.cadences, available := s.available, sense := s.sense, bus := s.bus, sweepPos := s.sweepPos,
    sweepLeft := s.sweepLeft, link := s.link, framer := s.framer, lossHold := s.lossHold, alignHold := s.alignHold,
    resetLine := s.resetLine, pendingRestart := s.pendingRestart, assembly := s.assembly, engine := s.engine,
    params := s.params }

variable (s : State)

/-! ## Records, counters, messages -/

@[simp] theorem still_setPort (p : PortNo) (q : Port) : (s.setPort p q).still = s.still := rfl
@[simp] theorem still_setLine (p : PortNo) (r : LineRecord) : (s.setLine p r).still = s.still := rfl
@[simp] theorem still_writeLine (p : PortNo) (r : LineRecord) : (s.writeLine p r).still = s.still := rfl
@[simp] theorem still_setSlot (n : SlotNo) (r : Slot) : (s.setSlot n r).still = s.still := rfl
@[simp] theorem still_setEntry (e : EntryNo) (r : Entry) : (s.setEntry e r).still = s.still := rfl
@[simp] theorem still_writeEntry (e : EntryNo) (b : Option Binding) : (s.writeEntry e b).still = s.still := rfl
@[simp] theorem still_setIndex (p : PortNo) (k : Option Nat) : (s.setIndex p k).still = s.still := rfl
@[simp] theorem still_countFault : s.countFault.still = s.still := rfl
@[simp] theorem still_hold : s.hold.still = s.still := rfl
@[simp] theorem still_release : s.release.still = s.still := rfl

@[simp] theorem still_send (m : Message) : (s.send m).still = s.still := by
  unfold State.send
  split
  · split <;> rfl
  · rfl

@[simp] theorem still_sendNow (m : Message) : (s.sendNow m).still = s.still := by
  unfold State.sendNow
  split <;> rfl

@[simp] theorem still_reply (m : Message) : (s.reply m).still = s.still := by simp [State.reply]

@[simp] theorem still_ack (tag : Nat) (c : Code) : (s.ack tag c).still = s.still := by simp [State.ack]

@[simp] theorem still_sends (ms : List Message) : (ms.foldl State.send s).still = s.still := by
  induction ms generalizing s with
  | nil => rfl
  | cons m ms ih => simp [ih]

/-- The handling of a failure keeps what its own work keeps. -/
theorem still_reporting (own : List Message) (f : State → State) (h : ∀ t, (f t).still = t.still) :
    (s.reporting own f).still = s.still := by
  unfold State.reporting
  split <;> simp [h]

/-! ## Ports, queues, slots -/

@[simp] theorem still_place (p : PortNo) (st : SupState) : (s.place p st).still = s.still := rfl
@[simp] theorem still_toIdle (p : PortNo) : (s.toIdle p).still = s.still := rfl
@[simp] theorem still_mark (p : PortNo) (b : Bool) : (s.mark p b).still = s.still := rfl
@[simp] theorem still_stopInjector (p : PortNo) : (s.stopInjector p).still = s.still := rfl
@[simp] theorem still_leaveQueue (p : PortNo) : (s.leaveQueue p).still = s.still := rfl
@[simp] theorem still_dropQueued (h : Nat) : (s.dropQueued h).still = s.still := rfl
@[simp] theorem still_dropRinging (h : Nat) : (s.dropRinging h).still = s.still := rfl
@[simp] theorem still_leavePool (n : SlotNo) : (s.leavePool n).still = s.still := rfl
@[simp] theorem still_suspect (n : SlotNo) : (s.suspect n).still = s.still := rfl
@[simp] theorem still_freeSlot (n : SlotNo) : (s.freeSlot n).still = s.still := rfl
@[simp] theorem still_blockSlot (n : SlotNo) : (s.blockSlot n).still = s.still := rfl
@[simp] theorem still_vacate (p : PortNo) : (s.vacate p).still = s.still := rfl
@[simp] theorem still_withdraw (p : PortNo) : (s.withdraw p).still = s.still := rfl

@[simp] theorem still_settle (p : PortNo) : (s.settle p).still = s.still := by
  unfold State.settle
  split <;> rfl

@[simp] theorem still_quarantine (p : PortNo) : (s.quarantine p).still = s.still := by
  unfold State.quarantine
  split <;> rfl

@[simp] theorem still_returnGoodSlot (n : SlotNo) : (s.returnGoodSlot n).still = s.still := by
  unfold State.returnGoodSlot
  split <;> rfl

@[simp] theorem still_lineActionsRetiring (p : PortNo) (h : Nat) : (s.lineActionsRetiring p h).still = s.still := by
  unfold State.lineActionsRetiring
  rw [still_reporting _ _ _ fun t => by simp]
  simp

@[simp] theorem still_completeCease (p : PortNo) (h : Nat) : (s.completeCease p h).still = s.still := by
  unfold State.completeCease
  dsimp only
  split
  · split
    · simp
    · split <;> simp
  · rfl

theorem still_leaveRinging (after : State → State) (h : Nat) (ha : ∀ t, (after t).still = t.still) :
    (s.leaveRinging after h).still = s.still := by
  unfold State.leaveRinging
  split <;> simp [ha]

/-! ## Creation -/

theorem still_create (n : SlotNo) (make : Nat → Binding) (p : PortNo) (andThen : Binding → State → State)
    (h : ∀ b t, (andThen b t).still = t.still) : (s.create n make p andThen).still = s.still := by
  unfold State.create
  split
  · rfl
  · simp only [h]
    rfl

@[simp] theorem still_seize (p : PortNo) (n : SlotNo) : (s.seize p n).still = s.still :=
  still_create s n _ p _ fun _ _ => by simp

/-! ## The budget pass -/

theorem still_retireFailed (after : State → State) (e : EntryNo) (b : Binding) (h : Nat)
    (ha : ∀ t, (after t).still = t.still) : (s.retireFailed after e b h).still = s.still := by
  simp [State.retireFailed, still_leaveRinging _ after _ ha]

theorem still_failEntry (after : State → State) (outer : Nat → List Message) (e : EntryNo)
    (ha : ∀ t, (after t).still = t.still) : (s.failEntry after outer e).still = s.still := by
  unfold State.failEntry
  dsimp only
  split
  · rw [still_reporting _ _ _ fun t => by simp]
    simp
  · split
    · rw [still_reporting _ _ _ fun t => still_retireFailed t after e _ _ ha]
      simp
    · rw [still_reporting _ _ _ fun t => still_retireFailed t after e _ _ ha]
      simp

@[simp] theorem still_shedTail (r : RingEntry) : (s.shedTail r).still = s.still := by
  unfold State.shedTail
  split
  · rfl
  · split
    · exact still_failEntry s _ _ _ fun _ => rfl
    · rfl

@[simp] theorem still_shedStep (fuel : Nat) : (s.shedStep fuel).still = s.still := by
  induction fuel generalizing s with
  | zero => rfl
  | succ fuel ih =>
    unfold State.shedStep
    split
    · split
      · simp [ih]
      · rfl
    · rfl

@[simp] theorem still_startHead (q : QueueEntry) : (s.startHead q).still = s.still := by
  unfold State.startHead
  split
  · rfl
  · split
    · exact still_failEntry s _ _ _ fun _ => rfl
    · rfl

@[simp] theorem still_admitStep (fuel : Nat) : (s.admitStep fuel).still = s.still := by
  induction fuel generalizing s with
  | zero => rfl
  | succ fuel ih =>
    unfold State.admitStep
    split
    · split
      · simp [ih]
      · rfl
    · rfl

@[simp] theorem still_budgetPass : s.budgetPass.still = s.still := by simp [State.budgetPass]

/-! ## Failures, CLEARING, service, retirement -/

theorem still_clearingEffects (e : EntryNo) (b : Binding) (move : State → State)
    (hm : ∀ t, (move t).still = t.still) : (s.clearingEffects e b move).still = s.still := by
  unfold State.clearingEffects
  rw [still_leaveRinging _ _ _ still_budgetPass, hm]
  simp

theorem still_enterClearing (e : EntryNo) (b : Binding) (c : Cause) (move : State → State)
    (hm : ∀ t, (move t).still = t.still) : (s.enterClearing e b c move).still = s.still := by
  simp [State.enterClearing, still_clearingEffects _ e b move hm]

@[simp] theorem still_bindingActions (outer : Nat → List Message) (e : EntryNo) :
    (s.bindingActions outer e).still = s.still := still_failEntry s _ outer e still_budgetPass

@[simp] theorem still_slotActions (n : SlotNo) : (s.slotActions n).still = s.still := by
  unfold State.slotActions
  dsimp only
  split
  · rw [still_reporting _ _ id fun _ => rfl]
    simp
  · split
    · rw [still_reporting _ _ _ fun t => still_retireFailed t _ _ _ _ still_budgetPass]
      simp
    · rw [still_reporting _ _ _ fun t => still_retireFailed t _ _ _ _ still_budgetPass]
      simp

@[simp] theorem still_suspectAtUse (n : SlotNo) (h : Nat) : (s.suspectAtUse n h).still = s.still := by
  unfold State.suspectAtUse
  rw [still_reporting _ _ id fun _ => rfl]
  simp

@[simp] theorem still_lineActions (p : PortNo) : (s.lineActions p).still = s.still := by
  unfold State.lineActions
  dsimp only
  split
  · split
    · rw [still_reporting _ _ _ fun t => by simp]
      simp
    · split
      · simp
      · rw [still_reporting _ _ _ fun t => still_clearingEffects t _ _ _ fun u => by simp]
        simp
  · rw [still_reporting _ _ _ fun t => by simp]
    simp

theorem still_allocate (c : LineClass) (fuel : Nat) : (s.allocate c fuel).1.still = s.still := by
  induction fuel generalizing s with
  | zero => rfl
  | succ fuel ih =>
    unfold State.allocate
    split
    · split
      · split
        · simp [ih]
        · rfl
      · rfl
    · rfl

theorem still_admitSlot (c : LineClass) : (s.admitSlot c).1.still = s.still := still_allocate s c _

@[simp] theorem still_serviceScan (fuel : Nat) (ps : List PortNo) : (s.serviceScan fuel ps).still = s.still := by
  induction fuel generalizing s ps with
  | zero => rfl
  | succ fuel ih =>
    cases ps with
    | nil => rfl
    | cons p rest =>
      unfold State.serviceScan
      split
      · rfl
      iterate 4
        split
        · exact ih s rest
      split
      · simp [ih]
      have ha := still_admitSlot s (s.line p).cls
      split
      · next t e => rw [e] at ha; rw [ih]; exact ha
      · next t n e => rw [e] at ha; rw [ih]; simpa using ha

@[simp] theorem still_service : s.service.still = s.still := by simp [State.service]

@[simp] theorem still_serviceIf (b : Bool) : (s.serviceIf b).still = s.still := by
  unfold State.serviceIf
  split <;> simp

@[simp] theorem still_bindingFailure (e : EntryNo) : (s.bindingFailure e).still = s.still := by
  simp [State.bindingFailure]

@[simp] theorem still_slotFailure (n : SlotNo) : (s.slotFailure n).still = s.still := by
  simp [State.slotFailure]

@[simp] theorem still_fold (b : Binding) : (s.fold b).still = s.still := by
  unfold State.fold
  dsimp only
  split
  · rfl
  · split <;> simp

@[simp] theorem still_returnSlot (b : Binding) : (s.returnSlot b).still = s.still := by
  unfold State.returnSlot
  split <;> simp

@[simp] theorem still_retire (e : EntryNo) (b : Binding) : (s.retire e b).still = s.still := by
  simp [State.retire, still_leaveRinging _ _ _ still_budgetPass]

end Sys2Proof.Machine
end

