-- ==== Sys2Proof/Laws/Ops.lean ====
section
/-!
SUPPORT. Laws/Ops.lean: what the shared operations come to, in the terms of Safety.lean: a port placed, settled or
quarantined, a binding out of the ringing lists, the messages of an event that holds its way out, a budget
pass that meets no failure, a deferred cease.
-/
namespace Sys2Proof.Machine

open Sys2Proof.Safety

/-! ## Ports -/

/-- A fed port that stays fed changes its supervision state alone (R31). -/
theorem place_fed {q : Port} {st : SupState} (hq : q.sup.fed = true) (hs : st.fed = true) :
    q.place st = { q with sup := st } := by simp [Port.place, hq, hs]

/-- A port that gains its feed looks at the loop (R31). -/
theorem place_gain {q : Port} {st : SupState} (hq : q.sup.fed = false) (hs : st.fed = true) :
    q.place st = { q with sup := st, classifier := if q.lineClosed then .closure 0 else .atRest } := by
  simp [Port.place, hq, hs]

/-- A port that stands unfed has its hook ON and nothing timed (R31). -/
theorem place_unfed (q : Port) {st : SupState} (hs : st.fed = false) :
    q.place st = { q with sup := st, hook := .on, classifier := .atRest, pulses := 0, makeTimer := none } := by
  simp [Port.place, hs]

/-- A fed port that is made IDLE, or PARKED by its marker (R44). -/
theorem toIdle_eq {q : Port} (h : q.sup.fed = true) : q.toIdle = idled q := by
  unfold Port.toIdle idled
  split
  · rw [place_unfed _ rfl]
  · rw [place_fed h rfl]

/-- A BOUND port settled by its hook (R45). -/
theorem settle_eq {q : Port} (h : q.sup = .bound) : q.settle = settled q := by
  have hf : q.sup.fed = true := by rw [h]; rfl
  unfold Port.settle settled
  split
  · next hk => rw [place_fed (st := .lockout) hf rfl]; simp [h, hk]
  · next hk => simp [h, hk, toIdle_eq hf]

variable (s : State)

/-- Writing what a port holds changes nothing. -/
theorem setPort_self (p : PortNo) : s.setPort p (s.port p) = s := by
  simp [State.setPort, State.port]

/-- The port of a binding that has ceased to exist (R45). -/
theorem State.settle_eq (p : PortNo) : s.settle p = s.setPort p (settled (s.port p)) := by
  unfold State.settle
  split
  · next h => rw [Machine.settle_eq h]
  · next h => simp [settled, h, setPort_self]

/-- The port of a record that is withdrawn (R179, step 4). -/
theorem State.quarantine_eq (p : PortNo) : s.quarantine p = s.setPort p (quarantined (s.port p)) := by
  unfold State.quarantine quarantined
  split
  · rfl
  · have hm : (s.mark p false).port p = { s.port p with parkPending := false } := by
      simp [State.mark, State.port, State.setPort]
    simp only [State.place, hm]
    simp only [State.mark, State.setPort, Vector.set_set]
    congr 2
    generalize s.port p = q
    obtain ⟨hook, cl, pu, mk, sup, pp, tl, inj, lc⟩ := q
    cases sup <;> simp_all [Port.place, SupState.fed]

/-! ## Ringing lists -/

/-- A binding that stands in neither list leaves none, and nothing follows. -/
theorem leaveRinging_none {s : State} (after : State → State) {h : Nat} (hn : NotRinging s h) :
    s.leaveRinging after h = s := by
  unfold State.leaveRinging
  have h1 : (s.ringList.any fun r => decide (r.handle = h)) = false := by
    simpa using hn.1
  have h2 : (s.ringQueue.any fun q => decide (q.handle = h)) = false := by
    simpa using hn.2
  simp [h1, h2]

/-- A binding that stands in one of them leaves it, and what follows a removal runs (R129). -/
theorem leaveRinging_some {s : State} (after : State → State) {h : Nat} (hn : ¬ NotRinging s h) :
    s.leaveRinging after h = after (unringing s h) := by
  unfold State.leaveRinging
  have : ((s.ringList.any fun r => decide (r.handle = h)) || (s.ringQueue.any fun q => decide (q.handle = h))) =
      true := by
    cases hb : (s.ringList.any fun r => decide (r.handle = h)) || (s.ringQueue.any fun q => decide (q.handle = h)) with
    | true => rfl
    | false => exact absurd (by simpa using hb) hn
  rw [if_pos this]
  rfl

/-! ## The way out -/

/-- While the event holds its way out, the messages it sends are kept in order. -/
theorem sends_held {s : State} (hl : s.link = .up) (hh : s.out.holding = true) (ms : List Message) :
    ms.foldl State.send s = { s with out := { s.out with held := s.out.held ++ ms } } := by
  induction ms generalizing s with
  | nil => simp
  | cons m ms ih =>
    have h1 : s.send m = { s with out := { s.out with held := s.out.held ++ [m] } } := by
      simp [State.send, hl, hh]
    rw [List.foldl_cons, h1, ih (s := { s with out := { s.out with held := s.out.held ++ [m] } }) hl hh]
    simp

/-- An event that holds nothing back sends at once. -/
theorem sends_quiet {s : State} (hq : s.out.holding = false) (ms : List Message) :
    ms.foldl State.send s = telling s ms := by
  induction ms generalizing s with
  | nil => simp [telling]
  | cons m ms ih =>
    by_cases hl : s.link = .up
    · have h1 : s.send m = { s with out := { s.out with sent := s.out.sent ++ [m] } } := by
        simp [State.send, hl, hq]
      rw [List.foldl_cons, h1, ih (s := { s with out := { s.out with sent := s.out.sent ++ [m] } }) hq]
      simp [telling, hl]
    · have h1 : s.send m = s := by simp [State.send, hl]
      rw [List.foldl_cons, h1, ih hq]
      simp [telling, hl]

/-- While the link is not UP nothing leaves (R192). -/
theorem sends_down {s : State} (hl : s.link ≠ .up) (ms : List Message) : ms.foldl State.send s = s := by
  induction ms with
  | nil => rfl
  | cons m ms ih =>
    have h1 : s.send m = s := by simp [State.send, hl]
    rw [List.foldl_cons, h1, ih]

/-! ## A budget pass that meets no failure -/

/-- What a budget pass leaves alone, and keeps, when every entry reads good: records, ports, queues but the ringing ones,
and the way out. -/
structure PassKeeps (s t : State) : Prop where
  reads : EntriesRead t
  slots : t.slots = s.slots
  pool : t.pool = s.pool
  lines : t.lines = s.lines
  keyIndex : t.keyIndex = s.keyIndex
  ports : t.ports = s.ports
  owq : t.owq = s.owq
  nextHandle : t.nextHandle = s.nextHandle
  out : t.out = s.out

theorem PassKeeps.same {s : State} (h : EntriesRead s) : PassKeeps s s := ⟨h, rfl, rfl, rfl, rfl, rfl, rfl, rfl, rfl⟩

theorem PassKeeps.trans {s t u : State} (h : PassKeeps s t) (k : PassKeeps t u) : PassKeeps s u :=
  ⟨k.reads, k.slots.trans h.slots, k.pool.trans h.pool, k.lines.trans h.lines, k.keyIndex.trans h.keyIndex,
    k.ports.trans h.ports, k.owq.trans h.owq, k.nextHandle.trans h.nextHandle, k.out.trans h.out⟩

/-- A written entry reads good, and the others as before. -/
theorem entriesRead_set {s : State} (h : EntriesRead s) (e : EntryNo) (b : Option Binding) :
    EntriesRead (s.writeEntry e b) := by
  intro f
  by_cases hf : e = f
  · subst hf
    simp [State.writeEntry, State.setEntry, State.entry]
  · have hv : e.val ≠ f.val := fun x => hf (Fin.ext x)
    have := h f
    simpa [State.writeEntry, State.setEntry, State.entry, hv] using this

/-- A shed of a good entry (R126). -/
theorem shedTail_keeps {s : State} (h : EntriesRead s) (r : RingEntry) : PassKeeps s (s.shedTail r) := by
  unfold State.shedTail
  split
  · exact ⟨h, rfl, rfl, rfl, rfl, rfl, rfl, rfl, rfl⟩
  · next e b _ =>
    rw [if_neg (by simp [h e])]
    exact ⟨entriesRead_set (s := { s.dropRinging r.handle with
      ringQueue := _, counters := _ }) h e _, rfl, rfl, rfl, rfl, rfl, rfl, rfl, rfl⟩

/-- A ring start of a good entry (R128). -/
theorem startHead_keeps {s : State} (h : EntriesRead s) (q : QueueEntry) : PassKeeps s (s.startHead q) := by
  unfold State.startHead
  split
  · exact ⟨h, rfl, rfl, rfl, rfl, rfl, rfl, rfl, rfl⟩
  · next e b _ =>
    rw [if_neg (by simp [h e])]
    exact ⟨entriesRead_set (s := { s.dropQueued q.handle with
      ringList := _, committed := _ }) h e _, rfl, rfl, rfl, rfl, rfl, rfl, rfl, rfl⟩

theorem shedStep_keeps {s : State} (h : EntriesRead s) (fuel : Nat) : PassKeeps s (s.shedStep fuel) := by
  induction fuel generalizing s with
  | zero => exact .same h
  | succ fuel ih =>
    unfold State.shedStep
    split
    · split
      · next r _ => exact (shedTail_keeps h r).trans (ih (shedTail_keeps h r).reads)
      · exact .same h
    · exact .same h

theorem admitStep_keeps {s : State} (h : EntriesRead s) (fuel : Nat) : PassKeeps s (s.admitStep fuel) := by
  induction fuel generalizing s with
  | zero => exact .same h
  | succ fuel ih =>
    unfold State.admitStep
    split
    · next q _ _ =>
      split
      · exact (startHead_keeps h q).trans (ih (startHead_keeps h q).reads)
      · exact .same h
    · exact .same h

/-- The budget pass, every entry reading good (R124). -/
theorem budgetPass_keeps {s : State} (h : EntriesRead s) : PassKeeps s s.budgetPass :=
  (shedStep_keeps h _).trans (admitStep_keeps (shedStep_keeps h _).reads _)

/-! ## A retirement and the line record -/

/-- A damaged record found by a retirement while the event holds its way out: withdrawn, its port in QUARANTINE, the
report kept (R179). -/
theorem lineActionsRetiring_held {s : State} (hh : s.out.holding = true) (p : PortNo) (h : Nat) :
    s.lineActionsRetiring p h = quarantining (s.send (.integrity .line p.val h)) p := by
  unfold State.lineActionsRetiring State.reporting
  rw [if_pos (by exact hh)]
  dsimp only [List.foldl]
  rw [State.quarantine_eq]
  unfold State.send
  by_cases hl : s.link = .up
  · rw [if_pos (by exact hl), if_pos hl, if_pos (by exact hh), if_pos hh]
    rfl
  · rw [if_neg (by exact hl), if_neg hl]
    rfl

/-- The same in an event that holds nothing back: the report leaves (R178). -/
theorem lineActionsRetiring_quiet {s : State} (hq : Quiet s) (p : PortNo) (h : Nat) :
    s.lineActionsRetiring p h = quarantining (telling s [.integrity .line p.val h]) p := by
  obtain ⟨hq1, hq2⟩ := hq
  unfold State.lineActionsRetiring State.reporting
  rw [if_neg (by rw [show (s.countFault.withdraw p).out = s.out from rfl, hq2]; decide)]
  dsimp only [List.foldl]
  rw [State.quarantine_eq]
  unfold State.send telling
  by_cases hl : s.link = .up
  · rw [if_pos (by exact hl), if_pos hl, if_pos (by rfl)]
    simp [State.release, State.hold, State.withdraw, State.countFault, State.setPort, quarantining, faulted, hq1, hq2,
      State.setLine, State.setIndex, State.leaveQueue, State.port, State.line, bump, satAdd, countMax]
  · rw [if_neg (by exact hl), if_neg hl]
    have ho : ({ sent := s.out.sent, held := [], holding := false } : Outbox) = s.out := by rw [← hq1, ← hq2]
    simp [State.release, State.hold, State.withdraw, State.countFault, State.setPort, quarantining, faulted, hq1, ho,
      State.setLine, State.setIndex, State.leaveQueue, State.port, State.line, bump, satAdd, countMax]

/-- No deferred cease: nothing completes. -/
theorem completeCease_none {s : State} {p : PortNo} (h : ¬ Ceasing s p) (b : Nat) : s.completeCease p b = s := by
  unfold State.completeCease
  exact if_neg h

/-- The read for CEASED finds the record damaged: the line failure actions take the place of the cease (R3, R15). -/
theorem completeCease_damaged {s : State} {p : PortNo} (h : Ceasing s p) (hd : (s.line p).damaged = true) (b : Nat) :
    s.completeCease p b = s.lineActionsRetiring p b := by
  unfold State.completeCease
  dsimp only
  rw [if_pos h, if_pos hd]

/-- A deferred cease completes: the line is ceased with its total, and CEASED is sent (R15). -/
theorem completeCease_good {s : State} {p : PortNo} (h : Ceasing s p) (hd : (s.line p).damaged = false) (b : Nat) :
    s.completeCease p b = (ceased s p (s.line p).total).send (.ceased p (s.line p).key (s.line p).total) := by
  unfold State.completeCease
  dsimp only
  rw [if_pos h, if_neg (by simp [hd])]
  congr 1
  have hp : (((s.leaveQueue p).vacate p).mark p false).port p = { s.port p with parkPending := false } := by
    simp [State.mark, State.vacate, State.leaveQueue, State.writeLine, State.setLine, State.setIndex, State.port,
      State.setPort]
  rw [hp]
  unfold ceased vacated
  by_cases ht : (s.port p).sup = .test
  · rw [if_pos (by exact ht), if_pos ht]
    rfl
  · rw [if_neg (by exact ht), if_neg ht, State.place, hp, place_unfed _ rfl]
    simp [State.mark, State.vacate, State.leaveQueue, State.writeLine, State.setLine, State.setIndex, State.setPort,
      LineRecord.ceased, LineRecord.initial, State.line]

end Sys2Proof.Machine
end

