-- ==== Sys2Proof/Laws/Queue.lean ====
section
/-!
SUPPORT. Laws/Queue.lean: no call, slot, queue or failure operation adds an entry to the origin wait queue, and so OWQ
service has fuel enough: a scan with more of it ends in the same state.
-/
namespace Sys2Proof.Machine

open Sys2Proof.Safety

variable (s : State)

/-! ## The queue through the operations: what is left is a sublist of it, in its order (R96) -/

@[simp] theorem owq_send (m : Message) : (s.send m).owq = s.owq := by
  unfold State.send
  split
  · split <;> rfl
  · rfl

@[simp] theorem owq_sendNow (m : Message) : (s.sendNow m).owq = s.owq := by
  unfold State.sendNow
  split <;> rfl

@[simp] theorem owq_sends (ms : List Message) : (ms.foldl State.send s).owq = s.owq := by
  induction ms generalizing s with
  | nil => rfl
  | cons m ms ih => simp [ih]

@[simp] theorem owq_settle (p : PortNo) : (s.settle p).owq = s.owq := by
  unfold State.settle
  split <;> rfl

@[simp] theorem owq_quarantine (p : PortNo) : (s.quarantine p).owq = s.owq := by
  unfold State.quarantine
  split <;> rfl

@[simp] theorem owq_suspect (n : SlotNo) : (s.suspect n).owq = s.owq := rfl

@[simp] theorem owq_countFault : s.countFault.owq = s.owq := rfl

/-- A port leaves the queue: the entries of the others stay, in their order. -/
theorem owq_leaveQueue (p : PortNo) : (s.leaveQueue p).owq.Sublist s.owq := List.filter_sublist

/-- A withdrawn record's port leaves the queue (R179, step 2). -/
theorem owq_withdraw (p : PortNo) : (s.withdraw p).owq.Sublist s.owq := List.filter_sublist

/-- The handling of a failure leaves what its own work leaves. -/
theorem owq_reporting (own : List Message) (f : State → State) (h : ∀ t, (f t).owq.Sublist t.owq) :
    (s.reporting own f).owq.Sublist s.owq := by
  unfold State.reporting
  split
  · exact (h _).trans (by simp)
  · exact (h _).trans (by simp [State.hold])

theorem owq_leaveRinging (after : State → State) (h : Nat) (ha : ∀ t, (after t).owq.Sublist t.owq) :
    (s.leaveRinging after h).owq.Sublist s.owq := by
  unfold State.leaveRinging
  split
  · exact ha _
  · exact .refl _

theorem owq_lineActionsRetiring (p : PortNo) (h : Nat) : (s.lineActionsRetiring p h).owq.Sublist s.owq :=
  (owq_reporting _ _ _ fun t => by simp).trans (owq_withdraw s.countFault p)

theorem owq_completeCease (p : PortNo) (h : Nat) : (s.completeCease p h).owq.Sublist s.owq := by
  unfold State.completeCease
  dsimp only
  split
  · split
    · exact owq_lineActionsRetiring s p h
    · rw [owq_send]
      split <;> exact owq_leaveQueue s p
  · exact .refl _

theorem owq_retireFailed (after : State → State) (e : EntryNo) (b : Binding) (h : Nat)
    (ha : ∀ t, (after t).owq.Sublist t.owq) : (s.retireFailed after e b h).owq.Sublist s.owq := by
  unfold State.retireFailed
  refine (owq_completeCease _ _ _).trans ?_
  rw [owq_settle]
  exact owq_leaveRinging s after _ ha

theorem owq_failEntry (after : State → State) (outer : Nat → List Message) (e : EntryNo)
    (ha : ∀ t, (after t).owq.Sublist t.owq) : (s.failEntry after outer e).owq.Sublist s.owq := by
  unfold State.failEntry
  dsimp only
  split
  · exact owq_reporting _ _ _ fun t => .refl _
  · split
    · exact owq_reporting _ _ _ fun t => owq_retireFailed t after e _ _ ha
    · exact (owq_reporting _ _ _ fun t => owq_retireFailed t after e _ _ ha).trans (by simp)

theorem owq_shedTail (r : RingEntry) : (s.shedTail r).owq.Sublist s.owq := by
  unfold State.shedTail
  split
  · exact .refl _
  · split
    · exact owq_failEntry s _ _ _ fun _ => .refl _
    · exact .refl _

theorem owq_shedStep (fuel : Nat) : (s.shedStep fuel).owq.Sublist s.owq := by
  induction fuel generalizing s with
  | zero => exact .refl _
  | succ fuel ih =>
    unfold State.shedStep
    split
    · split
      · exact (ih _).trans (owq_shedTail s _)
      · exact .refl _
    · exact .refl _

theorem owq_startHead (q : QueueEntry) : (s.startHead q).owq.Sublist s.owq := by
  unfold State.startHead
  split
  · exact .refl _
  · split
    · exact owq_failEntry s _ _ _ fun _ => .refl _
    · exact .refl _

theorem owq_admitStep (fuel : Nat) : (s.admitStep fuel).owq.Sublist s.owq := by
  induction fuel generalizing s with
  | zero => exact .refl _
  | succ fuel ih =>
    unfold State.admitStep
    split
    · split
      · exact (ih _).trans (owq_startHead s _)
      · exact .refl _
    · exact .refl _

theorem owq_budgetPass : s.budgetPass.owq.Sublist s.owq := (owq_admitStep _ _).trans (owq_shedStep s _)

theorem owq_clearingEffects (e : EntryNo) (b : Binding) (move : State → State)
    (hm : ∀ t, (move t).owq.Sublist t.owq) : (s.clearingEffects e b move).owq.Sublist s.owq :=
  (owq_leaveRinging _ _ _ owq_budgetPass).trans (hm _)

theorem owq_lineActions (p : PortNo) : (s.lineActions p).owq.Sublist s.owq := by
  have hw := owq_withdraw s.countFault p
  unfold State.lineActions
  dsimp only
  split
  · split
    · exact (owq_reporting _ _ _ fun t => by simp).trans hw
    · split
      · rw [owq_quarantine]
        exact (owq_failEntry _ _ _ _ owq_budgetPass).trans hw
      · exact (owq_reporting _ _ _ fun t => owq_clearingEffects t _ _ _ fun u => by simp).trans (by simp)
  · exact (owq_reporting _ _ _ fun t => by simp).trans hw

@[simp] theorem owq_suspectAtUse (n : SlotNo) (h : Nat) : (s.suspectAtUse n h).owq = s.owq := by
  unfold State.suspectAtUse State.reporting
  split <;> simp [State.hold, State.release]

@[simp] theorem owq_allocate (c : LineClass) (fuel : Nat) : (s.allocate c fuel).1.owq = s.owq := by
  induction fuel generalizing s with
  | zero => rfl
  | succ fuel ih =>
    unfold State.allocate
    split
    · split
      · split
        · simp [ih]
        · rfl
      · rfl
    · rfl

@[simp] theorem owq_admitSlot (c : LineClass) : (s.admitSlot c).1.owq = s.owq := owq_allocate s c _

@[simp] theorem owq_seize (p : PortNo) (n : SlotNo) : (s.seize p n).owq = s.owq := by
  unfold State.seize State.create
  split
  · rfl
  · rw [owq_send]
    rfl

/-! ## The fuel of the scan -/

/-- A port that waits leaves a shorter queue behind. -/
theorem leaveQueue_shorter {s : State} {p : PortNo} (h : s.waiting p = true) :
    (s.leaveQueue p).owq.length < s.owq.length := by
  obtain ⟨w, hw, hp⟩ := List.any_eq_true.1 h
  refine List.length_filter_lt_length_iff_exists.2 ⟨w, hw, ?_⟩
  simpa using hp

/-- A scan of these ports with more fuel than this ends as it does with any more. -/
def scanCost (s : State) (ps : List PortNo) : Nat := ps.length + s.owq.length * (s.owq.length + 1)

/-- Fuel beyond the cost of a scan changes nothing. -/
theorem serviceScan_fuel {fuel fuel' : Nat} {ps : List PortNo} (h : scanCost s ps < fuel) (h' : scanCost s ps < fuel') :
    s.serviceScan fuel ps = s.serviceScan fuel' ps := by
  induction fuel generalizing s ps fuel' with
  | zero => omega
  | succ fuel ih =>
    obtain ⟨fuel', rfl⟩ : ∃ k, fuel' = k + 1 := ⟨fuel' - 1, by omega⟩
    cases ps with
    | nil => rfl
    | cons p rest =>
      have next : ∀ t : State, t.owq.length ≤ s.owq.length →
          t.serviceScan fuel rest = t.serviceScan fuel' rest := by
        intro t ht
        have hm : t.owq.length * (t.owq.length + 1) ≤ s.owq.length * (s.owq.length + 1) :=
          Nat.mul_le_mul ht (by omega)
        simp only [scanCost, List.length_cons] at h h'
        exact ih t (by simp only [scanCost]; omega) (by simp only [scanCost]; omega)
      unfold State.serviceScan
      split
      · rfl
      split
      · exact next s (Nat.le_refl _)
      next hw =>
      iterate 3
        split
        · exact next s (Nat.le_refl _)
      split
      · exact next _ (owq_lineActions s p).length_le
      have ha := owq_admitSlot s (s.line p).cls
      split
      · next t e => rw [e] at ha; exact next t (Nat.le_of_eq (congrArg List.length ha))
      · next t n e =>
        rw [e] at ha
        dsimp only at ha ⊢
        have hl : (t.leaveQueue p).owq.length < s.owq.length := by
          have hq := leaveQueue_shorter (s := t) (p := p) (by simpa [State.waiting, ha] using hw)
          rwa [ha] at hq
        have hm : (t.leaveQueue p).owq.length * ((t.leaveQueue p).owq.length + 1 + 1) ≤
            s.owq.length * (s.owq.length + 1) := Nat.mul_le_mul (by omega) (by omega)
        have hx : (t.leaveQueue p).owq.length * ((t.leaveQueue p).owq.length + 1 + 1) =
            (t.leaveQueue p).owq.length + (t.leaveQueue p).owq.length * ((t.leaveQueue p).owq.length + 1) := by
          rw [Nat.mul_succ]; omega
        simp only [scanCost, List.length_cons] at h h'
        exact ih _ (by simp only [scanCost, owq_seize, List.length_map]; omega)
          (by simp only [scanCost, owq_seize, List.length_map]; omega)

/-- A scan of the whole queue with fuel enough is OWQ service: it starts again at the head (R101). -/
theorem serviceScan_service {fuel : Nat} (h : scanCost s (s.owq.map (·.port)) < fuel) :
    s.serviceScan fuel (s.owq.map (·.port)) = s.service := by
  refine serviceScan_fuel s h ?_
  simp only [scanCost, List.length_map]
  rw [Nat.succ_mul]
  omega


/-- Behind an empty pool nothing is read and nothing is served (R99, log entry 27). -/
theorem serviceScan_empty {s : State} (h : s.pool = []) (fuel : Nat) (ps : List PortNo) : s.serviceScan fuel ps = s := by
  cases fuel with
  | zero => rfl
  | succ fuel =>
    cases ps with
    | nil => rfl
    | cons p rest => simp [State.serviceScan, h]

/-- A class is admitted against the length of the pool (R53). -/
theorem admitted_iff (c : LineClass) : s.admitted c = true ↔ Admits s c := by
  cases c <;> simp [State.admitted, Admits, Nat.one_le_iff_ne_zero]

/-- An entry that the scan passes over leaves no trace (R99, R102). -/
theorem serviceScan_pass {s : State} {p : PortNo} (h : PassedOver s p) (fuel : Nat) (rest : List PortNo) :
    s.serviceScan (fuel + 1) (p :: rest) = s.serviceScan fuel rest := by
  by_cases he : s.pool = []
  · rw [serviceScan_empty he, serviceScan_empty he]
  rw [State.serviceScan, if_neg he]
  rcases h with h | ⟨⟨hw, hd⟩, ha⟩
  · simp [h]
  · have hf : s.admitted (s.line p).cls = false := by
      rw [← Bool.not_eq_true, admitted_iff]; exact ha
    have hs : s.admitSlot (s.line p).cls = (s, none) := by simp [State.admitSlot, State.allocate, hf]
    simp [hw, hd, hs]

end Sys2Proof.Machine
end

