-- ==== Sys2Proof/Laws/Taking.lean ====
section
/-!
SUPPORT. Laws/Taking.lean: what taking a message comes to. `State.taken` is the state a message's own rule is given; the
lemmas say that it reads as the state before, and how a reply made from it leaves.
-/
namespace Sys2Proof.Machine

open Sys2Proof.Safety

/-- The state that the rule of a message is given: the frame has left the assembly and later messages are held back. -/
def State.taken (s : State) : State := { s with assembly := [], out := { s.out with holding := true } }

variable {s : State}

/-- A message taken is its rule applied to `taken`, and the messages still held back leave at its end. -/
theorem takeMessage_listening (h : Listening s) (f : State → State) :
    s.takeMessage f = .next (f s.taken).release := by
  simp [State.takeMessage, State.canTake, h.1, h.2, State.taken, State.hold]

theorem takeMessage_deaf (h : ¬ Listening s) (f : State → State) : s.takeMessage f = .next s := by
  have : s.canTake = false := by
    simp only [State.canTake, Bool.and_eq_false_iff, decide_eq_false_iff_not]
    exact Decidable.not_and_iff_not_or_not.mp h
  simp [State.takeMessage, this]

/-! ## Reading `taken` -/

@[simp] theorem taken_fields (s : State) :
    s.taken.pending = s.pending ∧ s.taken.draws = s.draws ∧ s.taken.ports = s.ports ∧ s.taken.lines = s.lines ∧
    s.taken.keyIndex = s.keyIndex ∧ s.taken.keyPrefix = s.keyPrefix ∧ s.taken.cursor = s.cursor ∧
    s.taken.advance = s.advance ∧ s.taken.slots = s.slots ∧ s.taken.pool = s.pool ∧ s.taken.entries = s.entries ∧
    s.taken.nextHandle = s.nextHandle ∧ s.taken.owq = s.owq ∧ s.taken.cadences = s.cadences ∧
    s.taken.ringQueue = s.ringQueue ∧ s.taken.ringList = s.ringList ∧ s.taken.committed = s.committed ∧
    s.taken.available = s.available ∧ s.taken.sense = s.sense ∧ s.taken.bus = s.bus ∧
    s.taken.sweepPos = s.sweepPos ∧ s.taken.sweepLeft = s.sweepLeft ∧ s.taken.link = s.link ∧
    s.taken.framer = s.framer ∧ s.taken.lossHold = s.lossHold ∧ s.taken.alignHold = s.alignHold ∧
    s.taken.resetLine = s.resetLine ∧ s.taken.pendingRestart = s.pendingRestart ∧ s.taken.assembly = [] ∧
    s.taken.engine = s.engine ∧ s.taken.params = s.params ∧ s.taken.counters = s.counters := by
  and_intros <;> rfl

@[simp] theorem taken_out (s : State) : s.taken.out = { s.out with holding := true } := rfl
@[simp] theorem taken_port (s : State) (p : PortNo) : s.taken.port p = s.port p := rfl
@[simp] theorem taken_line (s : State) (p : PortNo) : s.taken.line p = s.line p := rfl
@[simp] theorem taken_slot (s : State) (n : SlotNo) : s.taken.slot n = s.slot n := rfl
@[simp] theorem taken_entry (s : State) (e : EntryNo) : s.taken.entry e = s.entry e := rfl
@[simp] theorem taken_indexKey (s : State) (p : PortNo) : s.taken.indexKey p = s.indexKey p := rfl
@[simp] theorem taken_portOfKey (s : State) (k : Nat) : s.taken.portOfKey k = s.portOfKey k := rfl
@[simp] theorem taken_byHandle (s : State) (h : Nat) : s.taken.byHandle h = s.byHandle h := rfl
@[simp] theorem taken_call (s : State) (p : PortNo) : s.taken.call p = s.call p := rfl
@[simp] theorem taken_hasClearing (s : State) (p : PortNo) : s.taken.hasClearing p = s.hasClearing p := rfl
@[simp] theorem taken_waiting (s : State) (p : PortNo) : s.taken.waiting p = s.waiting p := rfl
@[simp] theorem taken_busy (s : State) : s.taken.busy = s.busy := rfl
@[simp] theorem taken_parkable (s : State) (p : PortNo) : s.taken.parkable p = s.parkable p := rfl
@[simp] theorem taken_latch (s : State) (p : PortNo) : s.taken.latch p = s.latch p := rfl
@[simp] theorem taken_admitted (s : State) (c : LineClass) : s.taken.admitted c = s.admitted c := by
  cases c <;> rfl
@[simp] theorem taken_emptyEntry (s : State) : s.taken.emptyEntry = s.emptyEntry := rfl
@[simp] theorem taken_reportedHook (s : State) (p : PortNo) : s.taken.reportedHook p = s.reportedHook p := rfl
@[simp] theorem taken_returnState (s : State) (p : PortNo) : s.taken.returnState p = s.returnState p := rfl
@[simp] theorem taken_testHold (s : State) (p : PortNo) : s.taken.testHold p = s.testHold p := rfl

@[simp] theorem taken_resolve (s : State) (a : Address) : s.taken.resolve a = s.resolve a := by
  cases a <;> rfl

@[simp] theorem taken_resolveNoCursor (s : State) (a : Address) : s.taken.resolveNoCursor a = s.resolveNoCursor a := by
  cases a <;> rfl

@[simp] theorem taken_resolveForWrite (s : State) (a : Address) : s.taken.resolveForWrite a = s.resolveForWrite a := by
  cases a <;> rfl

/-! ## Replies -/

/-- A reply from a state that holds nothing back leaves after what was sent, and the way out is at rest. -/
theorem reply_eq {t : State} (hl : t.link = .up) (m : Message) :
    t.reply m = { t with out := { sent := t.out.sent ++ [m] ++ t.out.held, held := [], holding := false } } := by
  simp [State.reply, State.sendNow, State.release, hl]

/-- Letting go of a way out at rest changes nothing. -/
theorem release_quiet {t : State} (h : Quiet t) : t.release = t := by
  have ho : ({ sent := t.out.sent ++ t.out.held, held := [], holding := false } : Outbox) = t.out := by
    rw [h.1, List.append_nil, ← h.1, ← h.2]
  unfold State.release
  rw [ho]

/-- A message that is only answered: the reply leaves and nothing else changes (R191). -/
theorem ack_taken (hl : Listening s) (hq : Quiet s) (tag : Nat) (c : Code) :
    (s.taken.ack tag c).release = answering s [.ack tag c] := by
  simp only [State.ack, reply_eq (t := s.taken) (by simpa using hl.1)]
  simp [State.release, State.taken, answering, hq.1, hq.2]

/-- The same of any reply. -/
theorem reply_taken (hl : Listening s) (hq : Quiet s) (m : Message) :
    (s.taken.reply m).release = answering s [m] := by
  simp only [reply_eq (t := s.taken) (by simpa using hl.1)]
  simp [State.release, State.taken, answering, hq.1, hq.2]

/-- A message that is taken without a reply leaves only an empty assembly (R191). -/
theorem taken_release (hq : Quiet s) : s.taken.release = answering s [] := by
  simp [State.release, State.taken, answering, hq.1, hq.2]

/-- The engine is BUSY exactly when it is not IDLE (R17). -/
theorem busy_iff (s : State) : s.busy = true ↔ s.engine ≠ .idle := by
  unfold State.busy
  cases s.engine <;> simp

theorem not_busy {s : State} (h : s.engine = .idle) : s.busy = false := by simp [State.busy, h]

end Sys2Proof.Machine
end

