-- ==== Sys2Proof/Tests/Slice0.lean ====
section
/-!
SUPPORT. Tests/Slice0.lean: small tests. First what the checks of WellFormed.lean refuse; then frames written out octet
by octet from 11.1, R188 and 11.7; then one event each from the manual's tables and worked sequences, with the manual's
own outcome; then, for each statement with hypotheses, a state and operands that meet them.
-/
namespace Sys2Proof.Tests

open Sys2Proof.Machine Sys2Proof.Safety

/-! ## States to test on -/

/-- The link is UP and the cabinet at full capacity. -/
def up : State :=
  { State.reset with
    link := .up, framer := .aligned, available := 40
    sense := { State.reset.sense with heldB := some 520 } }

/-- A port with a record of this status, its key 1,000 above the port's number, in this supervision state. -/
def lined (s : State) (p : PortNo) (st : LineStatus) (sup : SupState) (hook : Hook) : State :=
  { s with
    lines := s.lines.set p { LineRecord.initial with status := st, key := some (1000 + p.val) }
    keyIndex := s.keyIndex.set p (some (1000 + p.val))
    ports := s.ports.set p { s.port p with sup := sup, hook := hook, lineClosed := hook == .off } }

/-- A binding that the entry and its slot hold. -/
def bound (s : State) (e : EntryNo) (b : Binding) : State :=
  { s with
    entries := s.entries.set e { binding := some b, damaged := false }
    slots := s.slots.set b.slot { state := .bound, handle := b.handle, blockPending := false, damaged := false }
    pool := s.pool.filter fun n => !decide (n = b.slot) }

/-- A binding of port 3 on slot 15. -/
def binding (ph : Phase) : Binding :=
  { handle := 7, port := 3, slot := 14, direction := .orig, phase := ph, cadence := none,
    early := if ph = .seizing then some [.digit (.num 5), .flash] else none, meterCount := 5, pendingPulses := 2,
    reversal := false, tAccept := some 0, tRingwait := some 0, tRingmax := some 0, tRelease := some 0 }

/-- A call on port 3. -/
def calling (ph : Phase) (hook : Hook) : State := bound (lined up 3 .active .bound hook) 0 (binding ph)

/-- A call on port 3 that rings alone. -/
def ringingAlone : State :=
  { calling .ringing .on with
    committed := 8
    ringList := [{ handle := 7, port := 3, cadence := 0, load := 8, segment := 0, left := 0 }] }

/-- A call on port 3 that waits to ring. -/
def ringWaiting : State :=
  { calling .ringWait .on with ringQueue := [{ handle := 7, port := 3, cadence := 0, load := 8 }] }

/-- A call of a CEASING line. -/
def closing (ph : Phase) : State := bound (lined up 3 .ceasing .bound .off) 0 (binding ph)

/-- The port in this state with these line-side fields. -/
def withPort (s : State) (p : PortNo) (f : Port → Port) : State := { s with ports := s.ports.set p (f (s.port p)) }

/-- The port BOUND, its hook as given. -/
def portBound (s : State) (p : PortNo) (hook : Hook) : State :=
  withPort s p fun q => { q with sup := .bound, hook := hook, lineClosed := hook == .off }

/-- The line record of the port damaged. -/
def lineDamaged (s : State) (p : PortNo) : State := { s with lines := s.lines.set p { s.line p with damaged := true } }

/-- The line record of the port withdrawn. -/
def lineWithdrawn (s : State) (p : PortNo) : State :=
  { s with lines := s.lines.set p { s.line p with withdrawn := true }, keyIndex := s.keyIndex.set p none }

/-- The slot record damaged. -/
def slotDamaged (s : State) (n : SlotNo) : State := { s with slots := s.slots.set n { s.slot n with damaged := true } }

/-- The entry damaged. -/
def entryDamaged (s : State) (e : EntryNo) : State :=
  { s with entries := s.entries.set e { s.entry e with damaged := true } }

/-- The state that a command leaves. -/
def after (s : State) (i : Instr) : State :=
  match exec i s with
  | .next t => t
  | _ => s

/-- A range walk from this position to this one. -/
def walking (pos last : PortNo) : RangeWalk :=
  { tag := 41, pos := pos, last := last, madeVacant := 0, madeCeasing := 0, linkLost := false, left := 0 }

/-! ## WellFormed: what each check refuses -/

theorem test_ill_formed_tag : (Instr.readParam 256).wf = false ∧ (Instr.readParam 255).wf = true := by decide

theorem test_ill_formed_addresses :
    (Instr.grant 1 (.port 256)).wf = false ∧ (Instr.grant 1 (.shortKey 65536)).wf = false ∧
    (Instr.grant 1 (.longKey 16777216)).wf = false ∧ (Instr.grant 1 (.handle 256)).wf = false ∧
    (Instr.grant 1 (.unknown 4)).wf = false ∧ (Instr.grant 1 (.unknown 256)).wf = false ∧
    (Instr.grant 1 (.unknown 5)).wf = true ∧ (Instr.grant 1 (.longKey 16777215)).wf = true := by decide

theorem test_ill_formed_records :
    ({ noRecord with status := 256 } : LineWrite).wf = false ∧ ({ noRecord with key := 16777216 } : LineWrite).wf = false ∧
    ({ noRecord with cls := 256 } : LineWrite).wf = false ∧ ({ noRecord with load := 256 } : LineWrite).wf = false ∧
    ({ noRecord with cadence := 256 } : LineWrite).wf = false ∧
    (Instr.writeLine 1 .cursor { noRecord with load := 256 }).wf = false := by decide

theorem test_ill_formed_operands :
    (Instr.offer 1 .cursor (some 256)).wf = false ∧ (Instr.clear 1 .cursor 256).wf = false ∧
    (Instr.meter 1 .cursor 256).wf = false ∧ (Instr.blockSlot 1 256).wf = false ∧
    (Instr.unblockSlot 1 256).wf = false ∧ (Instr.clearRange 1 256 0).wf = false ∧
    (Instr.clearRange 1 0 256).wf = false ∧ (Instr.setCursor 1 256).wf = false ∧
    (Instr.setAdvance 1 true true 256).wf = false ∧ (Instr.setPrefix 1 256).wf = false ∧
    (Instr.readCadence 1 256).wf = false ∧ (Instr.setParam 1 256 0).wf = false ∧
    (Instr.setParam 1 0 65536).wf = false ∧ (Instr.octetTaken 256).wf = false := by decide

theorem test_ill_formed_lists :
    (Instr.setCadence 1 256 []).wf = false ∧ (Instr.setCadence 1 0 [256, 1]).wf = false ∧
    (Instr.setCadence 1 0 (List.replicate 59 1)).wf = false ∧ (Instr.setCadence 1 0 (List.replicate 58 1)).wf = true ∧
    (Instr.storeClearEnd [78]).wf = false ∧ (Instr.storeClearEnd [7, 7]).wf = false ∧
    (Instr.storeClearEnd [0, 77]).wf = true := by decide

theorem test_ill_formed_handles :
    (Instr.segmentEnd 0).wf = false ∧ (Instr.tAcceptExpiry 256).wf = false ∧ (Instr.tRingwaitExpiry 0).wf = false ∧
    (Instr.tRingmaxExpiry 0).wf = false ∧ (Instr.tReleaseExpiry 0).wf = false ∧ (Instr.tReleaseExpiry 255).wf = true := by
  decide

/-! ## Frames written out from 11.1, R188 and 11.7 -/

/-- READ_PARAM is type 22 and has no body: length 4, tag 9. -/
theorem test_read_param_frame : decodeFrame [4, 22, 9, 221] = .readParam 9 := by decide

/-- GRANT is type 2; the address is form HANDLE, 4, and one octet. -/
theorem test_grant_frame : decodeFrame [6, 2, 1, 4, 7, 236] = .grant 1 (.handle 7) := by decide

/-- OFFER is type 1; form PORT, 0; a presence octet stands before the cadence. -/
theorem test_offer_frame : decodeFrame [8, 1, 2, 0, 3, 1, 2, 239] = .offer 2 (.port 3) (some 2) := by decide

/-- WRITE_LINE is type 12; the key takes three octets, most significant first. -/
theorem test_write_line_frame :
    decodeFrame [17, 12, 5, 0, 3, 1, 4, 187, 4, 0, 8, 2, 1, 0, 0, 0, 12] =
      .writeLine 5 (.port 3)
        { status := 1, key := 310020, cls := 0, load := 8, cadence := 2, reverse := true, meterPulse := false,
          keep := false, meterReset := false } := by decide

/-- SET_CADENCE is type 19; the segment count stands before the durations. -/
theorem test_set_cadence_frame : decodeFrame [8, 19, 3, 0, 2, 10, 30, 184] = .setCadence 3 0 [10, 30] := by decide

/-- SET_PARAM is type 21; the value takes two octets. G is parameter 0, and 20 is its value. -/
theorem test_set_param_frame : decodeFrame [7, 21, 6, 0, 0, 20, 202] = .setParam 6 0 20 := by decide

/-- TEST_CONNECT, type 10, by a long key; a flag is any octet but 0. -/
theorem test_test_connect_frame :
    decodeFrame [9, 10, 12, 2, 7, 239, 83, 1, 149] = .testConnect 12 (.longKey 520019) true := by decide

/-- A type that only the part sends, a body of another size, and a form that names none (R190). -/
theorem test_frames_of_no_message :
    decodeFrame [4, 27, 9, 216] = .badMessage 9 ∧ decodeFrame [5, 22, 9, 0, 220] = .badMessage 9 ∧
    decodeFrame [5, 2, 1, 5, 243] = .grant 1 (.unknown 5) := by decide

/-- RESTART is type 45 with tag 0; POWER carries a temperature as a signed octet, -50 being 206. -/
theorem test_report_frames :
    (Message.restart .link 2).frame = [6, 45, 0, 3, 2, 200] ∧
    (Message.power .conserve .cool (some 479) (some (-50))).frame = [11, 40, 0, 1, 0, 1, 1, 223, 1, 206, 28] := by
  decide

/-! ## One event each, with the manual's outcome -/

/-- The key that a prefix widens (1.3): prefix 4 and SHORT_KEY 3,107 name key 265,251. -/
theorem test_short_key :
    ({ up with keyPrefix := 4, keyIndex := State.reset.keyIndex.set 9 (some 265251) } : State).resolve (.shortKey 3107) =
      .port 9 := by decide

/-- The capacity tables of 6.3, and the winter evening of 6.8 (B = 476, T = 66). -/
theorem test_capacity_tables :
    [430, 440, 460, 476, 500, 520, 530].map
        (fun b => ({ up with sense := { up.sense with heldB := some b } } : State).capacity) =
      [0, 0, 10, 18, 30, 40, 40] ∧
    [59, 60, 66, 70, 74, 75].map
        (fun t => ({ up with sense := { up.sense with heldT := some t } } : State).capacity) =
      [40, 40, 24, 13, 2, 0] ∧
    ({ up with sense := { up.sense with heldB := some 476, heldT := some 66 } } : State).capacity = 10 := by decide

/-- The counter holds 254, and handles 254 and 1 are live: the next binding takes 255 (R67). -/
theorem test_next_handle :
    (bound (bound { up with nextHandle := 254 } 0 { binding .dialling with handle := 254 }) 1
      { binding .dialling with handle := 1, slot := 3 }).chooseHandle = 255 := by decide

/-- 1.9: the last step of CLEAR_RANGE meets a line with a call: it becomes CEASING, and OK leaves with both counts. -/
theorem test_range_walk_ends :
    let t := after { calling .ringWait .on with
      engine := .walk { walking 3 3 with madeVacant := 1, madeCeasing := 1 } } .rangeStep
    (t.line 3).status = .ceasing ∧ t.engine = .idle ∧ t.out.sent = [.rangeDone 41 1 2] := by decide

/-- 2.3: the make of a digit of 3 pulses reaches 250 ms in SEIZING; the digit joins the early list. -/
theorem test_digit_before_grant :
    let t := after (withPort (bound (lined up 3 .active .bound .off) 0 { binding .seizing with early := some [] }) 3
      fun q => { q with classifier := .make, pulses := 3, makeTimer := some 250 }) (.digitEnd 3)
    (t.entry 0).binding.map (·.early) = some (some [.digit (.num 3)]) ∧ (t.port 3).pulses = 0 ∧ t.out.sent = [] := by
  decide

/-- 2.3: a break of 300 ms after one pulse of a digit, in DIALLING: BAD goes before the flash. -/
theorem test_flash_in_a_digit :
    (after (withPort (calling .dialling .off) 3 fun q => { q with
      lineClosed := false, classifier := .breaking 300, pulses := 1, makeTimer := some 40 }) (.loopClosed 3 0)).out.sent =
      [.digit 7 .bad, .flash 7] := by decide

/-- 2.4: the exchange's CLEAR meets a break of 300 ms: CLEARED with the count, the fold, LOCKOUT, and the tone on. -/
theorem test_clear_meets_replaced_handset :
    let t := after (withPort (calling .connected .off) 3 fun q => { q with
      lineClosed := false, classifier := .breaking 300 }) (.clear 30 (.handle 7) 0)
    (t.port 3).sup = .lockout ∧ (t.line 3).total = 5 ∧ t.tone 3 = true ∧ t.latch 3 = .feedNormal ∧
      t.out.sent = [.cleared 30 7 5] := by decide

/-- 3.9: BLOCK_SLOT 13 takes slot 13 from the middle of the pool 9, 13, 2. -/
theorem test_block_slot :
    let t := after { up with pool := [8, 12, 1] } (.blockSlot 1 13)
    t.pool = [8, 1] ∧ (t.slot 12).state = .blocked ∧ t.out.sent = [.ack 1 .ok] := by decide

/-- 3.9: with F = 1 and R = 1 an OFFER for an ORDINARY line is refused, and the counter rises. -/
theorem test_offer_finds_no_slot :
    let t := after { lined up 26 .active .idle .on with pool := [1] } (.offer 4 (.longKey 1026) none)
    t.out.sent = [.refused 4 .noSlot] ∧ t.counters.noSlot = 1 ∧ t.pool = [1] := by decide

/-- 4.11: the off-hook of port 14 takes slot 6 from the pool 6, 11, 3 and sends SEIZE. -/
theorem test_origination :
    let t := after (withPort { lined up 14 .active .idle .on with pool := [5, 10, 2], nextHandle := 38 } 14
      fun q => { q with lineClosed := true, classifier := .closure 30 }) (.offHookDeclared 14)
    t.out.sent = [.seize 38 6 14 (some 1014)] ∧ t.pool = [10, 2] ∧ t.nextHandle = 39 ∧ (t.port 14).sup = .bound ∧
      (t.entry 0).binding.map (·.tAccept) = some (some 3000) ∧ t.counters.attempted = 1 := by decide

/-- 4.12: the CLEAR of a call in CLEARING retires it without a reply, and its slot lets the waiting port be served on the
slot at the pool head. -/
theorem test_crossed_clear_serves_a_waiting_port :
    let t := after (lined { calling .clearing .on with
      pool := [1], nextHandle := 60, owq := [{ port := 31, left := 5000 }] } 31 .active .waitSlot .off)
      (.clear 80 (.handle 7) 0)
    t.out.sent = [.seize 60 2 31 (some 1031)] ∧ t.pool = [14] ∧ t.owq = [] ∧ (t.line 3).total = 5 := by decide

/-- 6.8 just before 2.0 s: h7 and h8 ring, h9 waits; A is 16. -/
def winterEvening : State :=
  let b : Binding := { binding .ringing with direction := .term, cadence := some 0 }
  { bound (bound (bound up 0 b) 1 { b with handle := 8, slot := 1, port := 30 }) 2
      { b with handle := 9, slot := 2, port := 5, phase := .ringWait } with
    available := 16
    committed := 12
    ringQueue := [{ handle := 9, port := 5, cadence := 0, load := 12 }]
    ringList :=
      [{ handle := 7, port := 3, cadence := 0, load := 8, segment := 0, left := 9 },
       { handle := 8, port := 30, cadence := 0, load := 4, segment := 0, left := 9 }]
    sense := { up.sense with heldB := some 476, heldT := some 61, band := .hot, power := .conserve } }

/-- R51 and R183: the record of the slot at the pool head is found damaged; the OFFER takes the next slot, and the report
leaves after BOUND. -/
theorem test_offer_meets_damaged_slot :
    let t := after (slotDamaged (lined up 26 .active .idle .on) 0) (.offer 4 (.longKey 1026) none)
    t.out.sent = [.bound 4 1 2, .integrity .slot 1 0] ∧ (t.slot 0).state = .suspect ∧ t.pool.head? = some 2 ∧
      (t.entry 0).binding.map (·.slot) = some 1 := by decide

/-- R74: no GRANT came. The call goes to CLEARING and the port to LOCKOUT. -/
theorem test_no_grant :
    let t := after (calling .seizing .off) (.tAcceptExpiry 7)
    t.out.sent = [.clear 7 .noGrant 5] ∧ (t.port 3).sup = .lockout ∧
      (t.entry 0).binding.map (·.phase) = some .clearing := by decide

/-- R52 and R183: T_release runs out and the return finds the slot record damaged. The fold is made, the slot is SUSPECT
and out of the pool, and the report carries the retiring binding's handle. -/
theorem test_damaged_slot_at_its_return :
    let t := after (slotDamaged (calling .clearing .on) 14) (.tReleaseExpiry 7)
    t.out.sent = [.integrity .slot 15 7] ∧ (t.slot 14).state = .suspect ∧ t.pool = (calling .clearing .on).pool ∧
      (t.line 3).total = 5 ∧ (t.entry 0).binding = none := by decide

/-- R85 and R129 on that evening, with 4 le more: a CLEAR of h8 lowers L, and the pass of the same event starts h9. -/
theorem test_clear_starts_another :
    let t := after { winterEvening with available := 20 } (.clear 2 (.handle 8) 0)
    t.ringList.map (·.handle) = [7, 9] ∧ t.committed = 20 ∧ t.ringQueue = [] ∧ t.out.sent = [.cleared 2 8 5] := by decide

/-- 6.8 at 2.0 s: a battery reading of 452 at 61 °C brings A to 5; the newest ringer is shed to the head of the queue, the
lone ringer stays. -/
theorem test_shedding :
    let t := after winterEvening (.senseReading .battery (some 452))
    t.available = 5 ∧ t.committed = 8 ∧ t.ringQueue.map (·.handle) = [8, 9] ∧ t.ringList.map (·.handle) = [7] ∧
      t.counters.ringSheds = 1 := by decide

/-- 7.7: METER(h12, 6) with 1 pulse pending and the injector in a pulse: the count is 9, 7 are pending. -/
theorem test_meter :
    let t := after (bound (withPort { lined up 3 .active .bound .off with
        lines := up.lines.set 3 { LineRecord.initial with status := .active, key := some 1003, meterPulse := true } } 3
        fun q => { q with injector := .pulse 60 }) 0
      { binding .connected with meterCount := 3, pendingPulses := 1 }) (.meter 1 (.handle 7) 6)
    (t.entry 0).binding.map (fun b => (b.meterCount, b.pendingPulses)) = some (9, 7) ∧ t.out.sent = [] := by decide

/-- 8.7 at 3 s: a reading of 449 takes the cabinet into SURVIVAL; an ORDINARY idle port is parked, a PRIORITY one is
not. -/
theorem test_survival :
    let s := lined (lined up 3 .active .idle .on) 11 .active .idle .on
    let t := after { s with
        lines := s.lines.set 3 { s.line 3 with cls := .priority }
        sense := { up.sense with heldB := some 486, heldT := some 4, power := .conserve } }
      (.senseReading .battery (some 449))
    (t.port 3).sup = .idle ∧ (t.port 11).sup = .parked ∧ t.latch 11 = .feedOff ∧ t.available = 4 ∧
      t.out.sent = [.power .survival .cool (some 449) (some 4)] := by decide +kernel

/-- 8.8 at 8 s: a valid temperature clears the fault: SENSE goes before POWER, and A is 24. -/
theorem test_sensor_returns :
    let t := after { up with sense := { up.sense with heldB := some 500, heldT := some 59, runT := 5, faultT := true } }
      (.senseReading .temperature (some 63))
    t.available = 24 ∧ t.sense.band = .hot ∧
      t.out.sent = [.sense .temperature .ok, .power .normal .hot (some 500) (some 63)] := by decide

/-- 9.6: a forced TEST_CONNECT on a live call: CLEAR with cause TEST goes before the ACK, the latch is kept. -/
theorem test_forced_test :
    let t := after (bound (lined up 19 .active .bound .off) 6
      { binding .connected with handle := 44, port := 19, slot := 6, meterCount := 4, reversal := true })
      (.testConnect 12 (.port 19) true)
    t.out.sent = [.clear 44 .test 4, .ack 12 .ok] ∧ (t.port 19).sup = .test ∧ t.latch 19 = .feedReversed ∧
      t.applied 19 = .testHeld ∧ t.bus = some { port := 19, left := 600000 } := by decide

/-- 10.9: METER finds the entry damaged and then its slot: no CLEAR, no fold, and the two reports after the ACK. -/
theorem test_two_upsets :
    let t := after (slotDamaged (entryDamaged (bound (lined up 33 .active .bound .off) 6
      { binding .connected with handle := 90, port := 33, slot := 10, meterCount := 14 }) 6) 10) (.meter 55 (.handle 90) 2)
    t.out.sent = [.ack 55 .storeFault, .integrity .binding 6 0, .integrity .slot 11 0] ∧ (t.port 33).sup = .lockout ∧
      (t.slot 10).state = .suspect ∧ (t.line 33).total = 0 ∧ t.counters.integrityFaults = 2 := by decide

/-- R15 and R3 at a binding failure: the read for CEASED finds the CEASING record damaged, so it is withdrawn and no CEASED
leaves; the report carries the retiring binding's handle (log entry 16). -/
theorem test_damaged_record_at_a_cease :
    let t := after (lineDamaged (entryDamaged (closing .connected) 0) 3) (.answer 9 (.handle 7))
    t.out.sent = [.clear 7 .storeFault 5, .ack 9 .storeFault, .integrity .binding 0 7, .integrity .line 3 7] ∧
      (t.line 3).withdrawn = true ∧ (t.line 3).status = .ceasing ∧ (t.port 3).sup = .quarantine ∧
      t.counters.integrityFaults = 2 := by decide

/-- R179 with R45 and R182: line record and entry damaged together. The retirement settles the BOUND port, hook ON with its
marker set, to PARKED; QUARANTINE feeds it again, and its closed loop is timed from then. INTEGRITY(LINE) goes before
INTEGRITY(BINDING), both with the handle. -/
theorem test_line_and_entry_damaged :
    let s := lineDamaged (entryDamaged (withPort (calling .ringWait .on) 3 fun q =>
      { q with parkPending := true, lineClosed := true, classifier := .closure 12 }) 0) 3
    let t := after s (.readLine 8 (.port 3))
    (t.port 3).sup = .quarantine ∧ (t.port 3).parkPending = false ∧ (t.port 3).classifier = .closure 0 ∧
      t.out.sent = [.clear 7 .storeFault 5, .ack 8 .storeFault, .integrity .line 3 7, .integrity .binding 0 7] := by
  decide

/-- R156: entering SURVIVAL marks a port in TEST whose record is in use, and passes one whose record is VACANT (log entry
34). -/
theorem test_survival_marks_in_test :
    let t := after (lined (lined up 11 .active .test .on) 12 .vacant .test .on) (.senseReading .battery (some 449))
    (t.port 11).parkPending = true ∧ (t.port 12).parkPending = false := by decide +kernel

/-- 11.2: the alignment hold runs out with no pending restart: RESTART(LINK, 0), then POWER. -/
theorem test_link_returns :
    (after { up with
        link := .aligning, alignHold := some 0, pendingRestart := .none
        sense := { up.sense with heldB := some 500, heldT := some 61, band := .hot } } .alignmentHoldExpiry).out.sent =
      [.restart .link 0, .power .normal .hot (some 500) (some 61)] := by decide

/-- 11.3, tag 5: a write at port 47 with load 52 is CLAMPED to 40 and moves the cursor to 0. -/
theorem test_cursor_wraps :
    let t := after { up with cursor := 47, advance := { write := true, read := false, direction := .up } }
      (.writeLine 5 .cursor { noRecord with status := 1, key := 310147, load := 52 })
    t.cursor = 0 ∧ (t.line 47).load = 40 ∧ (t.port 47).sup = .idle ∧ t.out.sent = [.ack 5 .clamped] := by decide

/-- The queue is taken front first. -/
theorem test_queue : step { up with pending := [.setPrefix 1 9, .setPrefix 2 8] } =
    .next { up with pending := [.setPrefix 2 8], keyPrefix := 9, out := { up.out with sent := [.ack 1 .ok] } } := by rfl

/-! ## States and operands that meet the hypotheses of the statements -/

theorem test_witness_StepTakesFront : ({ up with pending := [.sweepStep] } : State).pending = .sweepStep :: [] := by decide

theorem test_witness_ClockTakesWhatIsDue :
    up.pending = [] ∧ up.dueNext = none ∧ up.storeClearing = false ∧
    ({ up with sweepLeft := 0 } : State).dueNext = some .sweepStep ∧
    ({ up with engine := .storeClear 1560 } : State).engine = .storeClear 1560 := by decide

/-- The classifiers and timers at the instants they run out. -/
theorem test_witness_ClockTakesWhatIsDue_bounds :
    (withPort up 0 fun q => { q with classifier := .closure 30 }).dueNext = some (.offHookDeclared 0) ∧
    (withPort up 0 fun q => { q with classifier := .closure 29 }).dueNext = none ∧
    (withPort up 47 fun q => { q with classifier := .breaking 900 }).dueNext = some (.onHookDeclared 47) ∧
    (withPort up 47 fun q => { q with classifier := .breaking 899 }).dueNext = none ∧
    (withPort up 9 fun q => { q with classifier := .make, makeTimer := some 250 }).dueNext = some (.digitEnd 9) ∧
    (withPort up 9 fun q => { q with classifier := .make, makeTimer := some 249 }).dueNext = none ∧
    (withPort { up with sense := { up.sense with power := .conserve } } 0 fun q =>
      { q with sup := .idle, classifier := .closure 200 }).dueNext = some (.offHookDeclared 0) ∧
    (withPort { up with sense := { up.sense with power := .conserve } } 0 fun q =>
      { q with sup := .idle, classifier := .closure 199 }).dueNext = none := by decide

/-- Each other event of the clock is the one taken in some state. -/
theorem test_witness_ClockTakesWhatIsDue_events :
    (withPort up 9 fun q => { q with injector := .pulse 0 }).dueNext = some (.pulseEnd 9) ∧
    (withPort up 9 fun q => { q with injector := .gap 0 }).dueNext = some (.gapEnd 9) ∧
    (calling .seizing .off).dueNext = some (.tAcceptExpiry 7) ∧
    (bound up 0 { binding .ringWait with tRingmax := none }).dueNext = some (.tRingwaitExpiry 7) ∧
    (calling .ringing .on).dueNext = some (.tRingmaxExpiry 7) ∧
    (calling .clearing .on).dueNext = some (.tReleaseExpiry 7) ∧
    ({ up with ringList := ringingAlone.ringList } : State).dueNext = some (.segmentEnd 7) ∧
    ({ up with owq := [{ port := 4, left := 0 }] } : State).dueNext = some (.tWaitExpiry 4) ∧
    ({ up with engine := .walk (walking 3 3) } : State).dueNext = some .rangeStep ∧
    ({ up with lossHold := some 0 } : State).dueNext = some .lossHoldExpiry ∧
    ({ up with alignHold := some 0 } : State).dueNext = some .alignmentHoldExpiry ∧
    ({ up with bus := some { port := 3, left := 0 } } : State).dueNext = some .tTestExpiry := by
  decide

/-- The end of a store clear, whatever locations fail (log entry 10). -/
theorem test_witness_ClockTakesWhatIsDue_storeClear :
    ∃ failed, ({ up with engine := .storeClear 0 } : State).dueNext = some (.storeClearEnd failed) := ⟨_, rfl⟩

theorem test_witness_FramesRoundTrip :
    (Instr.grant 1 (.handle 7)).wf = true ∧ addressOf (.grant 1 (.handle 7)) = some (.handle 7) ∧
    encodeFrame (.grant 1 (.handle 7)) = some [6, 2, 1, 4, 7, 236] ∧
    (encodeFrame (.setCadence 1 3 (List.replicate 58 100))).map List.length = some 64 := by decide

theorem test_witness_OctetsMakeAMessage :
    Listening up ∧ [6, 2, 1, 4, 7, 236].head? = some [6, 2, 1, 4, 7, 236].length ∧
    [6, 2, 1, 4, 7, 236].sum % 256 = 0 ∧ [6, 2, 1, 4, 7, 236].getLast? = some 236 ∧
    isMessage (decodeFrame [6, 2, 1, 4, 7, 236]) = true := by decide

theorem test_witness_FramesAreDiscarded :
    Listening up ∧ Quiet up ∧ up.assembly = [] ∧ ¬ Listening { up with framer := .lost } ∧
    isMessage (.badMessage 1) = true ∧
    ({ up with assembly := [4, 22, 9] } : State).assembly.head? = some ([4, 22, 9].length + 1) ∧
    ([4, 22, 9].sum + 0) % 256 ≠ 0 := by decide

theorem test_witness_AddressesResolve :
    let s := lined (lined up 0 .active .idle .on) 47 .active .idle .on
    Listening s ∧ Quiet s ∧ s.engine = .idle ∧ s.resolve (.port 48) = .fails .unknownLine ∧
    (∀ q, s.indexKey q = some (s.keyPrefix * 65536 + 1047) ↔ q = 47) ∧ (∀ q, s.indexKey q = some 1000 ↔ q = 0) ∧
    (∀ q, s.indexKey q ≠ some (s.keyPrefix * 65536 + 1048)) ∧ (∀ q, s.indexKey q ≠ some 65536) := by decide

/-- For SetPrefix, CursorRequests and EngineBusyRefuses. -/
theorem test_witness_engine :
    let busy := { up with engine := .walk (walking 3 3) }
    (Listening up ∧ Quiet up ∧ up.engine = .idle ∧ up.resetLine = .released ∧ up.storeClearing = false) ∧
    (Listening busy ∧ Quiet busy ∧ busy.engine ≠ .idle) ∧ ({ up with engine := .storeClear 9 } : State).engine = .storeClear 9 :=
  by decide

theorem test_witness_ReadLineReplies :
    Listening up ∧ Quiet up ∧ up.resolve (.port 47) = .port 47 ∧ up.resolve .cursor = .port 0 ∧ Reads up 47 ∧
    Reads (lineWithdrawn (lineDamaged up 0) 0) 0 := by decide

theorem test_witness_LineFailureIsHandled :
    let s := lineDamaged (lined up 47 .active .idle .on) 47
    Listening s ∧ Quiet s ∧ s.resolve (.port 47) = .port 47 ∧ (s.line 47).damaged = true ∧
      (s.line 47).withdrawn = false ∧ s.call 47 = none := by decide

theorem test_witness_WriteLinePutsInService :
    Listening up ∧ Quiet up ∧ up.engine = .idle ∧ up.cursor = 0 ∧
    ((1 : Nat), LineStatus.active) ∈ [(1, LineStatus.active), (2, LineStatus.outbar), (3, LineStatus.fullbar)] ∧
    ((1 : Nat), LineClass.priority) ∈ [(0, LineClass.ordinary), (1, LineClass.priority)] ∧ Reads up 0 ∧
    up.call 0 = none ∧ (up.port 0).sup ≠ .waitSlot ∧ (up.port 0).sup ≠ .bound ∧
    (∀ q, q ≠ 0 → up.indexKey q ≠ some 1000) := by decide

theorem test_witness_WriteLineRefusesOrVacates :
    let s := lined up 47 .active .idle .on
    (Reads (calling .connected .off) 3 ∧ (calling .connected .off).call 3 ≠ none) ∧
    (lined up 3 .active .waitSlot .off).call 3 = none ∧ ((lined up 3 .active .waitSlot .off).port 3).sup = .waitSlot ∧
    (Reads s 0 ∧ s.call 0 = none ∧ (s.port 0).sup ≠ .waitSlot ∧ ∀ r, s.indexKey r = some 1047 ↔ r = 47) ∧
    (Reads s 47 ∧ s.call 47 = none ∧ (s.port 47).sup ≠ .waitSlot ∧ (s.line 47).status ≠ .vacant) ∧
    (((lineWithdrawn s 47).line 47).withdrawn = true ∧ Reads (lineWithdrawn s 47) 47) ∧
    (let d := lineDamaged s 47
     (d.line 47).damaged = true ∧ (d.line 47).withdrawn = false ∧ d.call 47 = none) ∧
    (let c := { s with cursor := 47, advance := { write := true, read := false, direction := .up } }
     c.cursor = 47 ∧ cursorStep c.advance.direction c.cursor = 0 ∧ Reads c 47 ∧ c.call 47 = none) ∧
    (Listening s ∧ Quiet s ∧ s.engine = .idle ∧ (s.line 0).status = .vacant ∧ (s.line 0).withdrawn = false) := by decide

theorem test_witness_CeaseLineCeases :
    let s := lined up 47 .active .idle .on
    (s.resolve (.port 0) = .port 0 ∧ InUse s 0 ∧ (s.line 0).status = .vacant) ∧
    (s.resolve (.port 47) = .port 47 ∧ s.call 47 = none ∧ InUse s 47 ∧ (s.line 47).status ≠ .vacant) ∧
    (s.call 47 = none ∧ ((lineWithdrawn s 47).line 47).withdrawn = true) ∧
    ((calling .connected .off).call 3 ≠ none ∧ InUse (calling .connected .off) 3) ∧
    (let w := withPort (lineWithdrawn (calling .clearing .off) 3) 3 fun q => { q with sup := .quarantine }
     w.call 3 ≠ none ∧ (w.line 3).withdrawn = true ∧ (w.port 3).sup = .quarantine) := by decide

/-- A damaged record of a line without a call, and of one whose call clears, rings, or has its entry damaged too, with its
slot record good and damaged. -/
theorem test_witness_CeaseLineCeases_damaged :
    let b : Binding := { binding .ringing with direction := .term, cadence := some 0 }
    let ring := lineDamaged winterEvening 3
    let both := lineDamaged (entryDamaged winterEvening 0) 3
    ((lineDamaged up 3).call 3 = none ∧ (lineDamaged (calling .clearing .on) 3).call 3 = some (0, binding .clearing)) ∧
    (Holds ring 3 0 b ∧ EntriesRead ring ∧ ¬ NotRinging ring 7 ∧ (ring.line 3).damaged = true) ∧
    ((both.line 3).damaged = true ∧ (both.line 3).withdrawn = false ∧ both.call 3 = some (0, b) ∧
      (both.entry 0).damaged = true ∧ (both.slot 14).damaged = false ∧ both.engine = .idle ∧
      ((slotDamaged both 14).slot 14).damaged = true ∧ ∀ f : EntryNo, f ≠ 0 → (both.entry f).damaged = false) := by
  decide

theorem test_witness_RangeWalkSteps :
    let s := { up with engine := .walk (walking 0 47) }
    let d := lineDamaged (lined { up with engine := .walk (walking 47 47) } 47 .active .idle .on) 47
    (Quiet s ∧ s.engine = .walk (walking 0 47) ∧ (walking 0 47).pos < (walking 0 47).last ∧ (s.cease 0).2 ≠ .damaged) ∧
    ((walking 47 47).last ≤ (walking 47 47).pos ∧ (s.cease 47).2 ≠ .damaged) ∧ Listening s ∧
    (Quiet d ∧ d.engine = .walk (walking 47 47) ∧ (d.cease 47).2 = .damaged ∧ d.call 47 = none ∧ d.link = .up) := by
  decide

theorem test_witness_OfferRefused :
    let s := lined up 47 .active .idle .on
    let at47 := fun (st : LineStatus) (sup : SupState) =>
      Listening (lined up 47 st sup .on) ∧ Quiet (lined up 47 st sup .on) ∧
        (lined up 47 st sup .on).resolve (.longKey 1047) = .port 47 ∧ InUse (lined up 47 st sup .on) 47
    ((lineWithdrawn s 47).resolve (.port 47) = .port 47 ∧ ((lineWithdrawn s 47).line 47).withdrawn = true) ∧
    at47 .ceasing .bound ∧ at47 .fullbar .idle ∧ at47 .outbar .test ∧ at47 .active .parked ∧ at47 .active .lockout ∧
    (InUse (withPort (calling .clearing .on) 3 fun q => { q with sup := .idle }) 3 ∧
      (calling .clearing .on).hasClearing 3 = true) ∧
    (s.hasClearing 47 = false ∧ (s.line 47).cls = .ordinary ∧
      ({ s with pool := [4] } : State).pool.length ≤ s.params.reserve) ∧
    (({ s with pool := [], lines := s.lines.set 47 { s.line 47 with cls := .priority } } : State).line 47).cls =
      .priority ∧
    (((lineDamaged s 47).line 47).damaged = true ∧ (s.line 47).withdrawn = false ∧ s.call 47 = none) ∧
    (let d := slotDamaged { s with pool := [0, 1] } 0
     d.pool.head? = some 0 ∧ (d.slot 0).damaged = true ∧ Admits d .ordinary ∧ ¬ Admits (slotLost d 0) .ordinary) := by
  decide

theorem test_witness_HandlesAreChosen :
    1 ≤ up.nextHandle ∧ up.nextHandle ≤ 255 ∧ ({ up with nextHandle := 255 } : State).nextHandle ≤ 255 := by decide

theorem test_witness_OfferBinds :
    let s := lined up 47 .outbar .idle .on
    Listening s ∧ Quiet s ∧ s.resolve (.port 47) = .port 47 ∧ InUse s 47 ∧ (s.line 47).status = .outbar ∧
      (s.port 47).sup = .idle ∧ s.hasClearing 47 = false ∧ s.pool.head? = some 0 ∧ (s.slot 0).damaged = false ∧
      s.params.reserve < s.pool.length ∧ (s.entry 0).binding = none ∧
      ∀ f : EntryNo, f < 0 → (s.entry f).binding ≠ none := by decide

theorem test_witness_OfferBinds_damaged :
    let s := slotDamaged (lined up 47 .active .idle .on) 0
    Listening s ∧ s.pool.head? = some 0 ∧ (s.slot 0).damaged = true ∧ Admits s .ordinary ∧
      (slotLost s 0).pool.head? = some 1 ∧ ((slotLost s 0).slot 1).damaged = false ∧
      Admits (slotLost s 0) .ordinary ∧ InUse s 47 ∧ (s.line 47).cls = .ordinary ∧ (s.entry 0).binding = none := by
  decide

/-- For HandleChecks, GrantConnects, AnswerConnects and MeterCounts: a call in every phase, and no call. -/
theorem test_witness_handles :
    (∀ ph ∈ [Phase.seizing, .dialling, .ringWait, .ringing, .connected, .clearing],
      Listening (calling ph .off) ∧ Quiet (calling ph .off) ∧ Named (calling ph .off) 7 0 (binding ph) ∧
        Holds (calling ph .off) 3 0 (binding ph) ∧ Reads (calling ph .off) 3) ∧
    up.byHandle 7 = none := by decide

/-- For the clauses in which AnswerConnects, MeterCounts, BindingsRetire, SurvivalParks and SweepAndUpsets find the line
record of a live call damaged. -/
theorem test_witness_damaged_lines :
    (∀ ph ∈ [Phase.seizing, .dialling, .connected, .clearing],
      let s := lineDamaged (calling ph .off) 3
      Listening s ∧ Quiet s ∧ (s.line 3).damaged = true ∧ (s.line 3).withdrawn = false ∧ (s.slot 14).damaged = false ∧
        Holds s 3 0 (binding ph) ∧ Named s 7 0 (binding ph) ∧ NotRinging s 7 ∧ ∀ r, ScanFinds s r ↔ r = 3) ∧
    (binding .connected).direction = .orig ∧
    (let b : Binding := { binding .ringing with direction := .term, cadence := some 0, handle := 8, slot := 1, port := 30 }
     let s := { lineDamaged winterEvening 30 with sweepPos := 30 }
     Holds s 30 1 b ∧ Named s 8 1 b ∧ (s.line 30).damaged = true ∧ (s.line 30).withdrawn = false ∧ EntriesRead s ∧
       ¬ NotRinging s 8 ∧ (s.slot 1).damaged = false) := by decide +kernel

theorem test_witness_MeterCounts :
    let s := calling .connected .off
    let m := { s with lines := s.lines.set 3 { s.line 3 with meterPulse := true } }
    (s.line 3).meterPulse = false ∧ ((m.line 3).withdrawn = false ∧ (m.line 3).meterPulse = true) ∧ Reads m 3 ∧
    ((m.port 3).injector = .idle ∧ (m.port 3).hook = .off ∧ (m.port 3).sup ≠ .test) ∧
    ((withPort m 3 fun q => { q with injector := .gap 120 }).port 3).injector ≠ .idle ∧
    (1 : Nat) ≤ 15 := by decide

theorem test_witness_BindingsRetire :
    (∀ ph ∈ [Phase.seizing, .clearing, .connected],
      Retirable (calling ph .off) (binding ph) ∧ ¬ Ceasing (calling ph .off) 3 ∧ NotRinging (calling ph .off) 7) ∧
    (binding .clearing).tRelease.isSome = true ∧
    (Named ringingAlone 7 0 (binding .ringing) ∧ LastToRing ringingAlone 7 ∧ Retirable ringingAlone (binding .ringing)) ∧
    (Named ringWaiting 7 0 (binding .ringWait) ∧ LastToRing ringWaiting 7 ∧
      Retirable ringWaiting (binding .ringWait)) ∧
    (let b : Binding := { binding .ringing with direction := .term, cadence := some 0, handle := 8, slot := 1, port := 30 }
     Listening winterEvening ∧ Quiet winterEvening ∧ Named winterEvening 8 1 b ∧ Retirable winterEvening b ∧
       ¬ Ceasing winterEvening 30 ∧ ¬ NotRinging winterEvening 8 ∧ ¬ LastToRing winterEvening 8 ∧
       EntriesRead winterEvening) := by decide

/-- A call of a CEASING line in each phase; then one whose entry is damaged, its line record good and damaged. -/
theorem test_witness_DeferredCeaseCompletes :
    (∀ ph ∈ [Phase.seizing, .dialling, .connected, .clearing],
      Listening (closing ph) ∧ Quiet (closing ph) ∧ Named (closing ph) 7 0 (binding ph) ∧
        Retirable (closing ph) (binding ph) ∧ Ceasing (closing ph) 3 ∧ NotRinging (closing ph) 7) ∧
    (binding .clearing).tRelease.isSome = true ∧
    (∀ r ∈ [{ closing .ringing with ringList := ringingAlone.ringList, committed := 8 },
        { closing .ringWait with ringQueue := ringWaiting.ringQueue }],
      LastToRing r 7 ∧ ¬ NotRinging r 7 ∧ EntriesRead r ∧ Ceasing r 3) ∧
    (let s := entryDamaged (closing .connected) 0
     s.byHandle 7 = some (0, binding .connected) ∧ (s.entry 0).damaged = true ∧ (s.slot 14).damaged = false ∧
       s.waiting 3 = false ∧ (s.line 3).damaged = false ∧ ((lineDamaged s 3).line 3).damaged = true) := by decide

theorem test_witness_DeferredCeaseCompletes_silently :
    let s := { closing .connected with lossHold := some 0 }
    InUse s 3 ∧ Ceasing s 3 ∧ OnlyCall s 3 0 (binding .connected) ∧ s.link = .up ∧ s.lossHold = some 0 ∧
      (∀ h, s.bus = some h → h.port ≠ 3) ∧ s.resetLine = .released ∧ s.storeClearing = false :=
  ⟨by decide, by decide, by decide +kernel, rfl, rfl, nofun, rfl, rfl⟩

/-- A waiting port that can be served behind one that holds a CLEARING binding; one of a class that is not admitted; a
damaged line record and a damaged slot at the pool head. -/
theorem test_witness_ServiceServes :
    let q := lined { calling .clearing .off with owq := [{ port := 3, left := 5 }, { port := 47, left := 1 }] } 47
      .active .waitSlot .off
    let s := withPort q 3 fun x => { x with sup := .waitSlot }
    let few := { s with pool := [0] }
    (up.owq = [] ∧ Quiet s ∧ s.link = .up ∧ s.owq.map (·.port) = [3] ++ 47 :: [] ∧ (∀ x ∈ [(3 : PortNo)], PassedOver s x)) ∧
    (s.hasClearing 47 = false ∧ s.pool.head? = some 0 ∧ InUse s 47 ∧ Admits s (s.line 47).cls ∧
      (s.slot 0).damaged = false ∧ (s.port 47).sup = .waitSlot ∧ (s.entry 1).binding = none ∧
      ∀ f : EntryNo, f < 1 → (s.entry f).binding ≠ none) ∧
    (∀ w ∈ few.owq, PassedOver few w.port) ∧
    (((lineDamaged s 47).line 47).damaged = true ∧ (s.line 47).withdrawn = false ∧ s.call 47 = none) ∧
    (((slotDamaged s 0).slot 0).damaged = true ∧ Admits (slotDamaged s 0) .ordinary) := by decide

theorem test_witness_SlotsAreBlocked :
    let blocked := { up with slots := up.slots.set 0 { up.slot 0 with state := .blocked } }
    let suspect := { up with slots := up.slots.set 14 Slot.outOfService }
    ((up.slot 14).state = .free ∧ (up.slot 14).damaged = false) ∧
    (((calling .dialling .off).slot 14).state = .bound ∧ ((calling .dialling .off).slot 14).damaged = false) ∧
    ((blocked.slot 0).state = .blocked ∧ (blocked.slot 0).damaged = false) ∧ (suspect.slot 14).state = .suspect ∧
    (((slotDamaged up 0).slot 0).damaged = true ∧ ((slotDamaged up 0).slot 0).state = .free) ∧
    (((slotDamaged blocked 0).slot 0).damaged = true ∧ ((slotDamaged blocked 0).slot 0).state = .blocked) := by decide

theorem test_witness_QuerySlotsReplies :
    (∀ n, (up.slot n).damaged = false) ∧
    (let s := slotDamaged (slotDamaged up 0) 14
     (∃ n, (s.slot n).damaged = true) ∧ ∀ n, (s.slot n).damaged = true → (s.slot n).state ≠ .bound) ∧
    (let s := slotDamaged (calling .connected .off) 14
     (∀ m, (s.slot m).damaged = true ↔ m = 14) ∧ (s.slot 14).state = .bound) ∧
    (calling .connected .off).byHandle ((calling .connected .off).slot 14).handle = some (0, binding .connected) := by
  decide

theorem test_witness_TestConnects :
    let s := { lined up 47 .active .test .on with bus := some { port := 47, left := 5 } }
    (Listening s ∧ Quiet s ∧ s.resolve (.port 47) = .port 47 ∧ s.resolve (.port 0) = .port 0) ∧
    ((calling .connected .off).bus = none ∧ ((calling .connected .off).port 3).sup = .bound ∧
      Holds (calling .connected .off) 3 0 (binding .connected) ∧ LastToRing (calling .connected .off) 7) ∧
    (up.bus = none ∧ (up.port 0).sup ≠ .bound) ∧ LastToRing ringingAlone 7 ∧
    (let w := portBound winterEvening 3 .on
     w.bus = none ∧ (w.port 3).sup = .bound ∧ ¬ NotRinging w 7 ∧ ¬ LastToRing w 7 ∧ EntriesRead w ∧
       Holds w 3 0 { binding .ringing with direction := .term, cadence := some 0 }) ∧
    (let b : Binding := { binding .dialling with handle := 12, slot := 5, port := 40 }
     let w := portBound (bound winterEvening 3 b) 40 .off
     w.bus = none ∧ (w.port 40).sup = .bound ∧ Holds w 40 3 b ∧ NotRinging w 12 ∧ ¬ LastToRing w 12) := by decide

theorem test_witness_TestReleases :
    let s := { lined up 47 .active .test .on with bus := some { port := 47, left := 0 } }
    Quiet s ∧ Reads s 47 ∧ Listening s ∧ s.resolve (.longKey 1047) = .port 47 ∧ (s.port 47).sup = .test ∧
      (s.port 0).sup ≠ .test ∧ s.bus = some { port := 47, left := 0 } := by decide

theorem test_witness_TestReleases_damaged :
    let onBus := fun (s : State) => withPort { lineDamaged s 3 with bus := some { port := 3, left := 0 } } 3 fun q =>
      { q with sup := .test }
    (∀ s ∈ [onBus up, onBus (calling .clearing .off)],
      Quiet s ∧ Listening s ∧ (s.line 3).damaged = true ∧ (s.line 3).withdrawn = false ∧ (s.port 3).sup = .test ∧
        s.bus = some { port := 3, left := 0 } ∧ s.resolve (.port 3) = .port 3) ∧
    (onBus up).call 3 = none ∧ (onBus (calling .clearing .off)).call 3 = some (0, binding .clearing) := by decide

theorem test_witness_CadencesRun :
    ([5, 5, 5, 5, 5, 60] : List Nat).length ∈ [2, 4, 6] ∧ ([1] : List Nat).length ∉ [2, 4, 6] ∧
    ({ up with engine := .walk (walking 0 0) } : State).engine ≠ .idle := by decide

theorem test_witness_DriveFollows :
    (let s := withPort up 3 fun q => { q with sup := .test, testLatch := .ringOn }
     (s.port 3).sup = .test ∧ ({ s with params := { s.params with tone := false } } : State).port 3 = s.port 3) ∧
    (ringingAlone.port 3).sup = .bound ∧ ringingAlone.call 3 = some (0, binding .ringing) ∧
    ringingAlone.ringList.find? (fun x => decide (x.handle = (binding .ringing).handle)) =
      some { handle := 7, port := 3, cadence := 0, load := 8, segment := 0, left := 0 } := by decide

theorem test_witness_CapacityIsDerated :
    (∀ t ∈ [(59 : Int), 60, 74, 75],
      let s := { up with sense := { up.sense with heldB := some 476, heldT := some t } }
      s.params.battery = true ∧ s.sense.heldB = some 476 ∧ s.params.temperature = true ∧ s.sense.heldT = some t ∧
        ParamsOrdered s) ∧
    (up.params.tHot = 60 ∧ up.params.tTrip = 75) ∧ up.sense.heldT = none ∧
    (State.reset.params.battery = true ∧ State.reset.sense.heldB = none) ∧
    (let off := { up.params with battery := false, temperature := false }
     off.battery = false ∧ off.temperature = false ∧ InOrder off ∧ off.bFull = 520) := by decide

theorem test_witness_BudgetPassMoves :
    let s := { winterEvening with available := 5 }
    let w := { ringWaiting with available := 8 }
    (s.available < s.committed ∧ 1 < s.ringList.length ∧ (s.ringList.getLast?.map (·.handle)) = some 8 ∧
      (s.byHandle 8).isSome = true ∧ (s.entry 1).damaged = false) ∧
    (w.committed ≤ w.available ∧ (w.ringQueue.head?.map (·.handle)) = some 7 ∧ w.committed + 8 ≤ w.available ∧
      Named w 7 0 (binding .ringWait)) ∧
    (w.ringList = [] ∧ w.committed = 0 ∧ ({ w with available := 7 } : State).available < 8) ∧
    (up.committed ≤ up.available ∧ up.ringQueue.head? = none) := by decide

/-- For SetParamStores and SetParamActs: a parameter at its two ends, pairs that would fall out of order, and pairs that
would not. -/
theorem test_witness_SetParam :
    ParamsOrdered up ∧ InOrder (stored up 0 0) ∧ InOrder (stored up 0 65535) ∧ ¬ InOrder (stored up 1 300) ∧
    InOrder (stored up 1 700) ∧ ¬ InOrder (stored up 6 10) ∧ InOrder (stored up 16 0) ∧ InOrder (stored up 7 0) ∧
    InOrder (stored up 15 0) ∧
    (let s := { up with sense := { up.sense with power := .survival } }
     s.sense.power ≠ .normal ∧ s.params.battery = true ∧ (stored s 15 0).battery = false) ∧
    (winterEvening.sense.power ≠ .normal ∧ InOrder (stored winterEvening 15 0) ∧ winterEvening.ringQueue ≠ [] ∧
      winterEvening.ringList ≠ []) := by decide

theorem test_witness_StateIsReported :
    let s := calling .connected .off
    s.resolve (.port 3) = .port 3 ∧ Reads s 3 ∧ Listening s ∧ Quiet s := by decide

/-- For InvalidReadings and ValidReadings: readings at the ends of their ranges, and the states that follow them. -/
theorem test_witness_readings :
    (Quiet up ∧ up.storeClearing = false ∧ up.params.battery = true ∧ up.params.temperature = true ∧ ParamsOrdered up) ∧
    (∀ x ∈ (some 199 : Option Int), x < 200 ∨ 700 < x) ∧ (∀ x ∈ (some 701 : Option Int), x < 200 ∨ 700 < x) ∧
    (∀ x ∈ (none : Option Int), x < -50 ∨ 100 < x) ∧ (∀ x ∈ (some 101 : Option Int), x < -50 ∨ 100 < x) ∧
    powerAfter up.params .normal 450 = .conserve ∧ powerAfter up.params .normal 449 = .survival ∧
    powerAfter up.params .survival 459 = .survival ∧ powerAfter up.params .survival 460 = .conserve ∧
    powerAfter up.params .conserve 489 = .conserve ∧ powerAfter up.params .conserve 490 = .normal := by decide

theorem test_witness_SurvivalParks :
    (up.ringQueue = [] ∧ up.ringList = [] ∧ up.sense.power ≠ .survival ∧
      ∀ p, Reads up p ∨ (up.port p).sup = .vacant) ∧
    (winterEvening.ringList ≠ [] ∧ EntriesRead winterEvening ∧ winterEvening.sense.power ≠ .survival ∧
      powerAfter winterEvening.params winterEvening.sense.power 449 = .survival) ∧
    (let s := lineDamaged (lined up 11 .active .idle .on) 11
     ScanFinds s 11 ∧ ¬ ScanFinds s 12 ∧ s.call 11 = none) ∧
    (let s := portBound (lineDamaged winterEvening 30) 30 .on
     let q := { s.sense with heldB := some 449 }
     let u := ({ s with sense := q, available := ({ s with sense := q } : State).capacity } : State).budgetPass
     (u.call 30).map (fun x => (x.1, x.2.handle, x.2.phase)) = some (1, 8, .ringWait) ∧ (u.entry 1).damaged = false ∧
       ¬ NotRinging u 8 ∧ EntriesRead s ∧ ScanFinds s 30) ∧
    ({ up with sense := { up.sense with power := .survival } } : State).sense.power = .survival := by decide

theorem test_witness_LoopReports :
    let at3 := fun (c : Classifier) (closed : Bool) =>
      withPort (calling .dialling .off) 3 fun q => { q with classifier := c, lineClosed := closed }
    let rest := withPort (lined up 3 .active .idle .on) 3 fun q => { q with classifier := .atRest, lineClosed := false }
    ((rest.port 3).classifier = .atRest ∧ (rest.port 3).hook = .on ∧ (rest.port 3).lineClosed = false) ∧
    (∀ n ∈ [14, 15, 119, 120, 899], ((at3 (.breaking n) false).port 3).classifier = .breaking n ∧
      Holds (at3 (.breaking n) false) 3 0 (binding .dialling)) ∧
    (let t := withPort (lined up 3 .active .test .off) 3 fun q => { q with classifier := .breaking 900, lineClosed := false }
     (t.port 3).classifier = .breaking 900 ∧ (t.port 3).sup = .test) ∧
    (∀ early ∈ [[], [.flash, .flash], [.flash, .flash, .flash], [Dialled.flash, .flash, .flash, .flash]],
      let b := { binding .seizing with early := some early }
      let t := withPort (bound (lined up 3 .active .bound .off) 0 b) 3 fun q =>
        { q with classifier := .breaking 300, lineClosed := false, pulses := 1 }
      Holds t 3 0 b ∧ (t.port 3).sup = .bound ∧ 1 ≤ (t.port 3).pulses) ∧
    Holds (calling .clearing .off) 3 0 (binding .clearing) ∧
    ((at3 (.closure 29) true).port 3).classifier = .closure 29 ∧ ((at3 .make true).port 3).classifier = .make ∧
    (up.port 0).sup = .vacant ∧ Quiet up ∧ up.storeClearing = false := by decide

theorem test_witness_DigitsAreDelivered :
    let at3 := fun (ph : Phase) =>
      withPort (calling ph .off) 3 fun q => { q with classifier := .make, makeTimer := some 250, pulses := 1 }
    (∀ ph ∈ [Phase.seizing, .dialling, .connected, .clearing], Quiet (at3 ph) ∧
      ((at3 ph).port 3).makeTimer = some 250 ∧ ((at3 ph).port 3).pulses = 1 ∧ Holds (at3 ph) 3 0 (binding ph)) ∧
    ((binding .seizing).early.getD []).length < 4 ∧
    4 ≤ (({ binding .seizing with early := some [.flash, .flash, .flash, .flash] } : Binding).early.getD []).length ∧
    ((withPort (lined up 3 .active .lockout .off) 3 fun q =>
      { q with classifier := .make, makeTimer := some 250, pulses := 11 }).port 3).sup ≠ .bound := by decide

theorem test_witness_OffHookIsHandled :
    let s := withPort (lined up 47 .active .idle .on) 47 fun q => { q with classifier := .closure 30 }
    let w := { s with pool := [2] }
    (Quiet s ∧ (s.port 47).classifier = .closure 30 ∧ (s.port 47).sup = .idle ∧ InUse s 47) ∧
    ((s.line 47).status = .active ∧ s.link = .up ∧ s.hasClearing 47 = false ∧ s.pool.head? = some 0 ∧
      s.params.reserve < s.pool.length ∧ (s.entry 0).binding = none) ∧
    ((w.line 47).cls = .ordinary ∧ w.pool.length ≤ w.params.reserve) ∧
    ((lined up 47 .outbar .idle .on).line 47).status ≠ .active ∧ ({ s with link := .down } : State).link ≠ .up ∧
    ((lined up 47 .active .test .on).port 47).sup = .test ∧
    (∀ r ∈ [ringingAlone, ringWaiting], LastToRing r 7 ∧ ¬ NotRinging r 7 ∧ (r.port 3).sup = .bound) ∧
    (let m := withPort winterEvening 3 fun q => { q with sup := .bound, classifier := .closure 30 }
     Holds m 3 0 { binding .ringing with direction := .term, cadence := some 0 } ∧ (m.port 3).sup = .bound ∧
       (m.port 3).classifier = .closure 30 ∧ ¬ NotRinging m 7 ∧ ¬ LastToRing m 7) ∧
    (((lineDamaged s 47).line 47).damaged = true ∧ (s.line 47).withdrawn = false ∧ s.call 47 = none) ∧
    (((slotDamaged s 0).slot 0).damaged = true ∧ Admits (slotDamaged s 0) .ordinary) ∧
    (let d := entryDamaged ringingAlone 0
     d.call 3 = some (0, binding .ringing) ∧ (d.entry 0).damaged = true ∧ LastToRing d 7 ∧
       (d.slot 14).damaged = false ∧ ¬ Ceasing d 3 ∧ d.waiting 3 = false) := by decide

theorem test_witness_OnHookIsHandled :
    (∀ ph ∈ [Phase.seizing, .dialling, .connected],
      Holds (withPort (calling ph .off) 3 fun q => { q with classifier := .breaking 900 }) 3 0 (binding ph) ∧
        NotRinging (calling ph .off) 7) ∧
    ((lined up 0 .active .lockout .off).port 0).sup = .lockout ∧
    ((lined up 0 .active .waitSlot .off).port 0).sup = .waitSlot ∧
    ((withPort up 0 fun q => { q with classifier := .breaking 900 }).port 0).classifier = .breaking 900 := by decide

theorem test_witness_MeterPulsesRun :
    let s := withPort (calling .connected .off) 3 fun q => { q with injector := .gap 0 }
    ((withPort up 0 fun q => { q with injector := .pulse 0 }).port 0).injector = .pulse 0 ∧
    ((s.port 3).injector = .gap 0 ∧ Holds s 3 0 (binding .connected) ∧ 1 ≤ (binding .connected).pendingPulses ∧
      (s.port 3).hook = .off ∧ (s.port 3).sup ≠ .test) ∧
    (up.call 0 = none ∧ ((withPort up 0 fun q => { q with injector := .gap 0 }).port 0).injector = .gap 0) ∧
    ((withPort s 3 fun q => { q with hook := .on }).port 3).hook = .on := by decide

theorem test_witness_TimersRunOut :
    let w := { lined up 0 .active .waitSlot .off with owq := [{ port := 0, left := 0 }] }
    (Named (calling .seizing .off) 7 0 (binding .seizing) ∧ (binding .seizing).tAccept.isSome = true ∧
      ((calling .seizing .off).port 3).sup = .bound ∧
      NotRinging (calling .seizing .off) 7) ∧
    (Named ringWaiting 7 0 (binding .ringWait) ∧ (binding .ringWait).tRingwait.isSome = true ∧
      LastToRing ringWaiting 7 ∧ ¬ NotRinging ringWaiting 7) ∧
    (Named ringingAlone 7 0 (binding .ringing) ∧ (binding .ringing).tRingmax.isSome = true ∧
      LastToRing ringingAlone 7 ∧ ¬ NotRinging ringingAlone 7 ∧ (ringingAlone.port 3).sup = .bound) ∧
    (let v := portBound { winterEvening with available := 20 } 3 .on
     Named v 7 0 { binding .ringing with direction := .term, cadence := some 0 } ∧ ¬ NotRinging v 7 ∧ ¬ LastToRing v 7 ∧
       (v.port 3).sup = .bound) ∧
    (w.waiting 0 = true ∧ (w.port 0).sup = .waitSlot) ∧
    (calling .dialling .off).byHandle 7 = some (0, binding .dialling) := by decide

/-- The sweep at the first and the last position of each kind. -/
theorem test_witness_SweepAndUpsets :
    (Quiet up ∧ up.storeClearing = false ∧ up.sweepPos.val = (0 : PortNo).val ∧ Reads up 0) ∧
    (let s := lineDamaged (lined { up with sweepPos := 47 } 47 .active .idle .on) 47
     s.sweepPos.val = (47 : PortNo).val ∧ (s.line 47).damaged = true ∧ (s.line 47).withdrawn = false ∧
       s.call 47 = none) ∧
    (let s := slotDamaged { up with sweepPos := 48 } 0
     s.sweepPos.val = (0 : SlotNo).val + 48 ∧ (s.slot 0).damaged = true ∧ (s.slot 0).state ≠ .bound) ∧
    (({ up with sweepPos := 62 } : State).sweepPos.val = (14 : SlotNo).val + 48 ∧ (up.slot 14).damaged = false) ∧
    (({ up with sweepPos := 63 } : State).sweepPos.val = (0 : EntryNo).val + 63 ∧ (up.entry 0).damaged = false) ∧
    (let s := entryDamaged { up with sweepPos := 77 } 14
     s.sweepPos.val = (14 : EntryNo).val + 63 ∧ (s.entry 14).damaged = true ∧ (s.entry 14).binding = none) ∧
    (let s := entryDamaged { calling .connected .off with sweepPos := 63 } 0
     s.sweepPos.val = (0 : EntryNo).val + 63 ∧ (s.entry 0).binding = some (binding .connected) ∧ NotRinging s 7 ∧
       ¬ Ceasing s 3 ∧ s.waiting 3 = false ∧ (s.slot 14).damaged = false ∧ ((slotDamaged s 14).slot 14).damaged = true) ∧
    (let s := slotDamaged { calling .connected .off with sweepPos := 62 } 14
     s.sweepPos.val = (14 : SlotNo).val + 48 ∧ (s.slot 14).state = .bound ∧ (s.slot 14).handle = 7 ∧
       Named s 7 0 (binding .connected) ∧ (s.slot 14).damaged = true) := by decide

theorem test_witness_CallRecordFailures :
    let s := entryDamaged (calling .connected .off) 0
    let d := slotDamaged (calling .connected .off) 14
    let l := lineDamaged (calling .connected .off) 3
    (Listening s ∧ Quiet s ∧ NotRinging s 7 ∧ s.byHandle 7 = some (0, binding .connected) ∧
      (s.entry 0).damaged = true ∧ ¬ Ceasing s 3 ∧ s.waiting 3 = false ∧ (s.slot 14).damaged = false) ∧
    ((slotDamaged s 14).slot 14).damaged = true ∧
    ((d.slot 14).state = .bound ∧ (d.slot 14).damaged = true ∧ (d.slot 14).handle = 7 ∧
      Named d 7 0 (binding .connected)) ∧
    ((l.line 3).damaged = true ∧ (l.line 3).withdrawn = false ∧ Holds l 3 0 (binding .connected)) := by decide

/-- For LinkFollowsTheFramer. -/
theorem test_witness_link :
    (up.link = .up ∧ up.framer = .aligned ∧ State.reset.link = .down ∧ State.reset.framer = .lost ∧
      State.reset.resetLine = .released ∧ State.reset.storeClearing = false) ∧
    (let s := { up with link := .aligning, alignHold := some 0 }
     Quiet s ∧ s.link = .aligning ∧ s.alignHold = some 0) ∧
    ({ State.reset with resetLine := .asserted } : State).resetLine = .asserted := by decide

theorem test_witness_LinkLossEndsCalls :
    let s := lined { calling .connected .off with
      lossHold := some 0, owq := [{ port := 47, left := 1 }], engine := .walk (walking 3 3) } 47 .active .waitSlot .off
    s.link = .up ∧ s.lossHold = some 0 ∧ (∀ n ∈ s.pool, (s.slot n).state = .free) ∧ (∀ p, Reads s p) ∧
      (∀ n, (s.slot n).state = .bound → (s.slot n).damaged = false) ∧ ¬ Ceasing s 3 ∧ s.bus = none ∧
      OnlyCall s 3 0 (binding .connected) ∧ s.waiting 3 = false ∧ s.call 47 = none ∧ s.waiting 47 = true ∧
      (s.port 47).sup = .waitSlot := by decide +kernel

/-- A port on the bus: without a call, with one in CLEARING, and with one whose line is being ceased. -/
theorem test_witness_LinkLossEndsCalls_bus :
    let onBus := fun (s : State) =>
      withPort { s with lossHold := some 0, bus := some { port := 3, left := 7 } } 3 fun q => { q with sup := .test }
    (∀ s ∈ [lined up 3 .active .test .off, calling .clearing .off, closing .clearing],
      (onBus s).link = .up ∧ ((onBus s).port 3).sup = .test ∧ (onBus s).waiting 3 = false ∧ InUse (onBus s) 3) ∧
    (onBus (lined up 3 .active .test .off)).call 3 = none ∧
    (∀ s ∈ [calling .clearing .off, closing .clearing], OnlyCall (onBus s) 3 0 (binding .clearing)) ∧
    ¬ Ceasing (onBus (calling .clearing .off)) 3 ∧ Ceasing (onBus (closing .clearing)) 3 := by decide +kernel

theorem test_witness_WarmResets :
    let s := calling .connected .off
    Listening s ∧ Quiet s ∧ Reads s 3 ∧ ¬ Ceasing s 3 ∧ OnlyCall s 3 0 (binding .connected) ∧ s.call 0 = none ∧
      s.resetLine = .released ∧ s.storeClearing = false := by decide +kernel

theorem test_witness_StartsUp :
    ({ up with engine := .storeClear 0 } : State).engine = .storeClear 0 ∧ [0, 47, 48, 62, 63, 77].Nodup ∧
    (∀ l ∈ [0, 47, 48, 62, 63, 77], l < 78) := by decide

/-- For BoundsAreKept, SlotsAndBindingsAgree, BudgetIsKept, LinesAndPortsAgree and CallsAndQueuesAgree: the promises hold of a state with a
call that rings, and a step of it answers a next state. -/
theorem test_witness_promises :
    Quiet ringingAlone ∧ ParamsOrdered ringingAlone ∧ CountersBounded ringingAlone ∧ CapacityFollows ringingAlone ∧
    PoolExact ringingAlone ∧ BindingsExact ringingAlone ∧ BudgetHeld ringingAlone ∧ PortsPlaced ringingAlone := by
  decide +kernel

theorem test_witness_IndexExact : IndexExact ringingAlone := by
  have keys : ∀ p q, (ringingAlone.indexKey p).isSome = true → ringingAlone.indexKey p = ringingAlone.indexKey q →
      p = q := by decide +kernel
  exact ⟨by decide +kernel, fun p q k hp hq => keys p q (by rw [hp]; rfl) (hp.trans hq.symm)⟩

theorem test_witness_promises_step :
    step { ringingAlone with pending := [.setPrefix 1 9] } =
      .next { ringingAlone with keyPrefix := 9, out := { ringingAlone.out with sent := [.ack 1 .ok] } } := by rfl

theorem test_witness_SlotsHeld : SlotsHeld ringingAlone := by decide +kernel

theorem test_witness_CallsPlaced : CallsPlaced ringingAlone := by
  and_intros <;> decide +kernel

end Sys2Proof.Tests
end

section
/-!
PROOFS. SET_PREFIX and `keyPrefix` (R5): what a request of the provisioning engine comes to, and what a warm reset and a
store clear do to `keyPrefix`.
-/
namespace Sys2Proof.Machine

open Sys2Proof.Safety

/-! ## Requests of the provisioning engine -/

section
variable {s : State}

/-- While the engine is IDLE a request is its own rule, run on the state that taking the message gives (R17). -/
theorem takeMessage_provision_idle (hl : Listening s) (hi : s.engine = .idle) (tag : Nat) (f : State → State) :
    (s.takeMessage fun t => t.provision tag f) = .next (f s.taken).release := by
  simp [takeMessage_listening hl, State.provision, not_busy hi]

/-- While the engine is BUSY a request is answered BUSY, whatever its rule (R17). -/
theorem takeMessage_provision_busy (hl : Listening s) (hq : Quiet s) (hb : s.engine ≠ .idle) (tag : Nat)
    (f : State → State) :
    (s.takeMessage fun t => t.provision tag f) = .next (answering s [.ack tag .busy]) := by
  simp [takeMessage_listening hl, State.provision, (busy_iff s).mpr hb, ack_taken hl hq]

end

/-! ## What a warm reset and a store clear leave alone -/

section
variable (s : State)

theorem keyPrefix_of_still {s t : State} (h : t.still = s.still) : t.keyPrefix = s.keyPrefix :=
  congrArg Still.keyPrefix h

/-- A fold keeps what each of its steps keeps. -/
theorem still_foldl {α : Type} (f : State → α → State) (h : ∀ t a, (f t a).still = t.still) (xs : List α) :
    (xs.foldl f s).still = s.still := by
  induction xs generalizing s with
  | nil => rfl
  | cons x xs ih => rw [List.foldl_cons, ih, h]

@[simp] theorem still_retireQuiet (settle : Bool) (e : EntryNo) : (s.retireQuiet settle e).still = s.still := by
  unfold State.retireQuiet
  split
  · rfl
  · cases settle <;> simp

@[simp] theorem still_returnQuiet (n : SlotNo) : (s.returnQuiet n).still = s.still := by
  unfold State.returnQuiet
  split
  · split <;> simp
  · rfl

@[simp] theorem still_retireAll (settle : Bool) : (s.retireAll settle).still = s.still := by
  unfold State.retireAll
  dsimp only
  rw [still_foldl _ _ still_returnQuiet, still_foldl _ _ fun t e => still_retireQuiet t settle e]
  rfl

@[simp] theorem still_emptyEntries : s.emptyEntries.still = s.still :=
  still_foldl s _ (fun t e => still_writeEntry t e none) allEntries

@[simp] theorem still_resetPort (p : PortNo) : (s.resetPort p).still = s.still := by
  unfold State.resetPort
  dsimp only
  split <;> split <;> simp

@[simp] theorem still_sendRestart (c : RestartCause) (n : Nat) : (s.sendRestart c n).still = s.still := by
  unfold State.sendRestart
  dsimp only
  split <;> split <;> simp

@[simp] theorem still_failLocation (i : SweepPos) : (s.failLocation i).still = s.still := by
  unfold State.failLocation
  split <;> simp

@[simp] theorem tryAlign_keyPrefix : s.tryAlign.keyPrefix = s.keyPrefix := by
  unfold State.tryAlign
  split <;> rfl

/-- No action of a warm reset writes `keyPrefix` (R5, R208). -/
@[simp] theorem warmReset_keyPrefix : s.warmReset.keyPrefix = s.keyPrefix := by
  have placed (v : State) : (allPorts.foldl State.resetPort v).keyPrefix = v.keyPrefix :=
    keyPrefix_of_still (still_foldl v _ still_resetPort allPorts)
  have emptied (v : State) : (v.retireAll false).emptyEntries.keyPrefix = v.keyPrefix :=
    keyPrefix_of_still (by simp)
  simp only [State.warmReset, State.silently, placed, emptied]

end

/-! ## `keyPrefix` after each event of R5 -/

/-- A store clear ends with `keyPrefix` at its reset value, whatever locations failed (R5, R207). -/
theorem storeClearEnd_keyPrefix (s : State) (failed : List Nat) (h : s.storeClearing = true) :
    ∃ t, exec (.storeClearEnd failed) s = .next t ∧ t.keyPrefix = 0 := by
  refine ⟨_, congrArg Host.Outcome.next (if_pos h), ?_⟩
  rw [tryAlign_keyPrefix, keyPrefix_of_still (still_foldl _ _ still_failLocation _)]
  rfl

theorem resetCabinet_keyPrefix {s : State} (hl : Listening s) (tag : Nat) :
    ∃ t, exec (.resetCabinet tag) s = .next t ∧ t.keyPrefix = s.keyPrefix := by
  have taken : s.canTake = true := by simp [State.canTake, hl.1, hl.2]
  refine ⟨_, congrArg Host.Outcome.next (if_pos taken), ?_⟩
  calc _ = (s.ack tag .ok).warmReset.keyPrefix := keyPrefix_of_still (still_sendRestart _ _ _)
    _ = (s.ack tag .ok).keyPrefix := warmReset_keyPrefix _
    _ = s.keyPrefix := keyPrefix_of_still (still_ack s tag .ok)

theorem resetLineAsserted_keyPrefix {s : State} (hr : s.resetLine = .released) (hc : s.storeClearing = false) :
    ∃ t, exec .resetLineAsserted s = .next t ∧ t.keyPrefix = s.keyPrefix := by
  have asserted : ({ s with resetLine := .asserted } : State).storeClearing = false := hc
  refine ⟨_, congrArg Host.Outcome.next ((if_neg (by simp [hr])).trans (if_neg (by simp [asserted]))), ?_⟩
  simp only [warmReset_keyPrefix]

/-- SET_PREFIX taken while the engine is IDLE: taking the message and writing `keyPrefix` can be done in either order,
so what is left is the plain OK of the state with the new value. -/
theorem setPrefix_idle {s : State} (hl : Listening s) (hq : Quiet s) (hi : s.engine = .idle) (tag v : Nat) :
    exec (.setPrefix tag v) s = .next { answering s [.ack tag .ok] with keyPrefix := v } :=
  calc exec (.setPrefix tag v) s
      = .next (({ s with keyPrefix := v } : State).taken.ack tag .ok).release :=
        takeMessage_provision_idle hl hi tag _
    _ = .next (answering { s with keyPrefix := v } [.ack tag .ok]) :=
        congrArg Host.Outcome.next (ack_taken (s := { s with keyPrefix := v }) hl hq tag .ok)

theorem setPrefix_busy {s : State} (hl : Listening s) (hq : Quiet s) (hb : s.engine ≠ .idle) (tag v : Nat) :
    exec (.setPrefix tag v) s = .next (answering s [.ack tag .busy]) :=
  takeMessage_provision_busy hl hq hb tag _

/-- A short key is widened by `keyPrefix`; the key index it is looked up in does not depend on it (R5, R6). -/
theorem resolve_shortKey_withPrefix (s : State) (v x : Nat) :
    ({ s with keyPrefix := v } : State).resolve (.shortKey x) = s.resolve (.longKey (v * 65536 + x)) := rfl

/-- Settles O9: one lemma for each event of R5. -/
theorem setPrefix : Obligations.SetPrefix := by
  refine ⟨rfl, fun s failed left h => ?_, fun s tag v hl hq => ?_⟩
  · exact storeClearEnd_keyPrefix s failed (by simp [State.storeClearing, h])
  · exact ⟨fun hi => setPrefix_idle hl hq hi tag v, fun hb => setPrefix_busy hl hq hb tag v,
      resolve_shortKey_withPrefix s v, resetCabinet_keyPrefix hl tag, resetLineAsserted_keyPrefix⟩

end Sys2Proof.Machine
end

section
/-!
PROOFS. The drive latch, the applied drive and the congestion tone (R25, R26, R27): what the derived state of a port is
in each of its supervision states and in each phase of its call.
-/
namespace Sys2Proof.Machine

section
variable {s : State} {p : PortNo}

/-! ## The latch of each supervision state (R25, R26) -/

theorem latch_unfed (h : (s.port p).sup.fed = false) : s.latch p = .feedOff := by
  unfold State.latch
  cases hs : (s.port p).sup <;> simp [hs, SupState.fed] at h ⊢

/-- A fed port without a live call outside CLEARING, and off the test bus, has the plain feed. -/
theorem latch_plainFeed (h : (s.port p).sup ∈ [SupState.idle, .waitSlot, .lockout, .quarantine]) :
    s.latch p = .feedNormal := by
  unfold State.latch
  cases hs : (s.port p).sup <;> simp [hs] at h ⊢

theorem latch_test (h : (s.port p).sup = .test) : s.latch p = (s.port p).testLatch := by simp [State.latch, h]

theorem latch_bound (h : (s.port p).sup = .bound) : s.latch p = s.boundDrive p := by simp [State.latch, h]

theorem applied_test (h : (s.port p).sup = .test) : s.applied p = .testHeld := by simp [State.applied, h]

theorem applied_eq_latch (h : (s.port p).sup ≠ .test) : s.applied p = s.latch p := by
  unfold State.applied
  split
  · next ht => exact absurd ht h
  · rfl

/-- In TEST the latch is read from the port alone: no other part of the state has a say in it (R26). -/
theorem latch_test_congr {t : State} (h : (s.port p).sup = .test) (hp : t.port p = s.port p) :
    t.latch p = s.latch p := by
  rw [latch_test h, latch_test (hp ▸ h), hp]

/-! ## The latch of a BOUND port, by the phase of its call -/

section
variable {e : EntryNo} {b : Binding} (hc : s.call p = some (e, b))
include hc

theorem boundDrive_connected (hb : b.phase = .connected) :
    s.boundDrive p = if b.reversal = true then .feedReversed else .feedNormal := by
  simp [State.boundDrive, hc, hb]

theorem boundDrive_ringing (hb : b.phase = .ringing) : s.boundDrive p = s.ringDrive b.handle := by
  simp [State.boundDrive, hc, hb]

/-- Neither ringing nor connected, a call leaves its port the plain feed. -/
theorem boundDrive_plainFeed (hr : b.phase ≠ .ringing) (hn : b.phase ≠ .connected) : s.boundDrive p = .feedNormal := by
  cases hb : b.phase <;> simp_all [State.boundDrive]

end

/-- The drive of a handle on the ringing list follows the segment it has reached (R111, R112). -/
theorem ringDrive_listed {h : Nat} {r : RingEntry} (hf : s.ringList.find? (fun x => decide (x.handle = h)) = some r) :
    s.ringDrive h = if r.segment % 2 = 0 then .ringOn else .feedNormal := by
  simp [State.ringDrive, hf]

/-! ## The congestion tone (R27) -/

theorem tone_iff : s.tone p = true ↔ (s.port p).sup = .lockout ∧ s.params.tone = true ∧ s.sense.power = .normal := by
  simp [State.tone, and_assoc]

end

/-- Settles O34: the latch by supervision state, then by phase, and the tone. -/
theorem driveFollows : Obligations.DriveFollows := by
  refine ⟨fun s p => ⟨?_, latch_plainFeed, applied_eq_latch, ?_, ?_, tone_iff⟩, ?_⟩
  · rintro (h | h) <;> exact latch_unfed (by rw [h]; rfl)
  · exact fun h => ⟨applied_test h, latch_test h, fun t => latch_test_congr h⟩
  · intro e b h hc
    rw [latch_bound h]
    refine ⟨boundDrive_connected hc, fun hb => boundDrive_plainFeed hc ?_ ?_⟩ <;> rintro h <;> simp [h] at hb
  · intro s p e b r h hc hb hf
    rw [latch_bound h, boundDrive_ringing hc hb, ringDrive_listed hf]

end Sys2Proof.Machine
end

section
/-!
PROOFS. ON_HOOK_DECLARED (R33, R40 to R44): what a search for a call finds, what entry to CLEARING comes to for a call
that stands in no ringing list, and the on-hook of each supervision state.
-/
namespace Sys2Proof.Machine

open Sys2Proof.Safety

/-! ## Finding a call -/

section
variable {s : State} {e : EntryNo} {b : Binding}

/-- A search finds a binding that stands in its entry and meets the test. -/
theorem findBinding_found {test : Binding → Bool} (h : s.findBinding test = some (e, b)) :
    (s.entry e).binding = some b ∧ test b = true := by
  obtain ⟨f, -, hf⟩ := List.exists_of_findSome?_eq_some h
  split at hf
  · next c hc =>
    obtain ⟨ht, rfl, rfl⟩ : test c = true ∧ f = e ∧ c = b := by simpa using hf
    exact ⟨hc, ht⟩
  · cases hf

/-- The call of a port names that port (R66). -/
theorem call_port {p : PortNo} (h : s.call p = some (e, b)) : b.port = p := by
  simpa using (findBinding_found h).2

end

/-! ## Writing a port -/

section
variable (s : State) (p : PortNo)

@[simp] theorem port_porting (q : Port) : (porting s p q).port p = q := by
  simp [porting, State.port]

@[simp] theorem porting_porting (q r : Port) : porting (porting s p q) p r = porting s p r := by
  simp [porting]

variable {s p}

/-- A fed port is made IDLE, or PARKED by its marker (R44). -/
theorem State.toIdle_eq (h : (s.port p).sup.fed = true) : s.toIdle p = porting s p (idled (s.port p)) :=
  congrArg (s.setPort p) (Machine.toIdle_eq h)

end

/-! ## Entry to CLEARING (R84) -/

section
variable (s : State)

/-- Messages that leave and a port that is written do not touch each other. The lemma after it says the same of an
entry. -/
theorem porting_telling (p : PortNo) (q : Port) (ms : List Message) :
    porting (telling s ms) p q = telling (porting s p q) ms :=
  apply_ite (porting · p q) _ _ _

theorem holding_telling (e : EntryNo) (b : Option Binding) (ms : List Message) :
    holding (telling s ms) e b = telling (holding s e b) ms :=
  apply_ite (holding · e b) _ _ _

theorem inClearing_telling (b : Binding) (ms : List Message) : inClearing (telling s ms) b = inClearing s b := by
  unfold telling
  split <;> rfl

theorem port_telling (p : PortNo) (ms : List Message) : (telling s ms).port p = s.port p := by
  unfold telling
  split <;> rfl

theorem notRinging_telling (h : Nat) (ms : List Message) : NotRinging (telling s ms) h ↔ NotRinging s h := by
  unfold telling
  split <;> rfl

variable {s}

/-- A call that stands in no ringing list enters CLEARING: its CLEAR leaves, its record is in CLEARING, its injector is
IDLE, and its port is moved. No budget pass follows (R129). -/
theorem enterClearing_eq {e : EntryNo} {b : Binding} (hn : NotRinging s b.handle) (c : Cause)
    {move : State → State} {q : Port}
    (hm : ∀ t : State, t.port b.port = { s.port b.port with injector := .idle } → move t = porting t b.port q) :
    s.enterClearing e b c move =
      telling (holding (porting s b.port q) e (some (inClearing s b))) [.clear b.handle c b.meterCount] := by
  let ms := [Message.clear b.handle c b.meterCount]
  let cleared := telling (holding s e (some (inClearing s b))) ms
  have hport : cleared.port b.port = s.port b.port := port_telling _ _ _
  have hmoved : move (cleared.stopInjector b.port) = porting cleared b.port q := by
    rw [hm _ (by simp [State.stopInjector, hport])]
    exact porting_porting cleared b.port _ q
  have hquiet : NotRinging (porting cleared b.port q) b.handle := (notRinging_telling _ _ ms).mpr hn
  calc s.enterClearing e b c move
      = (move ((holding (telling s ms) e (some (inClearing (telling s ms) b))).stopInjector b.port)).leaveRinging
          State.budgetPass b.handle := rfl
    _ = (move (cleared.stopInjector b.port)).leaveRinging State.budgetPass b.handle := by
        rw [inClearing_telling, holding_telling]
    _ = porting cleared b.port q := by rw [hmoved, leaveRinging_none _ hquiet]
    _ = _ := porting_telling _ _ _ _

end

/-! ## The on-hook, by supervision state (R40 to R43) -/

section
variable {s : State} {p : PortNo}

theorem exec_onHookDeclared {k : Nat} (h : (s.port p).classifier = .breaking k) :
    exec (.onHookDeclared p) s = .next (s.onHook p) := by
  show execOnHookDeclared p s = _
  simp [execOnHookDeclared, h]

/-- Outside a call, a wait and LOCKOUT the declaration writes the hook and its timing, and nothing follows (R43). -/
theorem onHook_silent (hb : (s.port p).sup ≠ .bound) (hw : (s.port p).sup ≠ .waitSlot)
    (hl : (s.port p).sup ≠ .lockout) :
    s.onHook p = porting s p (declared (s.port p) .on .atRest) := by
  unfold State.onHook
  cases h : (s.port p).sup with
  | bound => exact absurd h hb
  | waitSlot => exact absurd h hw
  | lockout => exact absurd h hl
  | _ => rfl

theorem onHook_bound (h : (s.port p).sup = .bound) :
    s.onHook p = (porting s p (declared (s.port p) .on .atRest)).onHookBound p := by
  simp only [State.onHook, declared, h]
  rfl

theorem onHook_waiting (h : (s.port p).sup = .waitSlot) :
    s.onHook p = (porting s p (declared (s.port p) .on .atRest)).abandon p := by
  simp only [State.onHook, declared, h]
  rfl

theorem onHook_lockedOut (h : (s.port p).sup = .lockout) :
    s.onHook p = (porting s p (declared (s.port p) .on .atRest)).toIdle p := by
  simp only [State.onHook, declared, h]
  rfl

/-- An abandon: the port leaves the queue, it is counted, and the port is IDLE or PARKED (R41). -/
theorem abandon_eq (h : (s.port p).sup.fed = true) :
    s.abandon p =
      { porting s p (idled (s.port p)) with
        owq := s.owq.filter fun w => !decide (w.port = p)
        counters := { s.counters with abandons := min (s.counters.abandons + 1) 65535 } } :=
  State.toIdle_eq
    (s := { s.leaveQueue p with counters := { s.counters with abandons := bump s.counters.abandons } }) h

/-- The line clear of a call in SEIZING, DIALLING or CONNECTED: CLEARING with CLEAR(LINE_CLEAR), the injector idle, the
port IDLE or PARKED (R40, R84, R87). -/
theorem onHookBound_lineClear {e : EntryNo} {b : Binding} (hh : Holds s p e b)
    (hp : b.phase ∈ [Phase.seizing, .dialling, .connected]) (hn : NotRinging s b.handle)
    (hf : (s.port p).sup.fed = true) :
    s.onHookBound p =
      telling
        (holding (porting s p (idled { s.port p with injector := .idle })) e (some (inClearing s b)))
        [.clear b.handle .lineClear b.meterCount] := by
  obtain ⟨hcall, hgood⟩ := hh
  obtain rfl := call_port hcall
  have hclear : s.onHookBound b.port = s.enterClearing e b .lineClear fun t => t.toIdle b.port := by
    have hphase : b.phase = .seizing ∨ b.phase = .dialling ∨ b.phase = .connected := by simpa using hp
    rcases hphase with hph | hph | hph <;> simp [State.onHookBound, hcall, hph, hgood]
  rw [hclear]
  exact enterClearing_eq hn .lineClear fun t ht => by rw [State.toIdle_eq (by rw [ht]; exact hf), ht]

end

/-- Settles O46: the on-hook of each supervision state. -/
theorem onHookIsHandled : Obligations.OnHookIsHandled := by
  intro s p k hk q hq
  subst hq
  simp only [exec_onHookDeclared hk]
  refine ⟨fun h => congrArg _ ?_, fun h => congrArg _ ?_, fun h => congrArg _ ?_, fun e b h hh hp hn => congrArg _ ?_⟩
  · rcases h with h | h <;> exact onHook_silent (by simp [h]) (by simp [h]) (by simp [h])
  · rw [onHook_lockedOut h, State.toIdle_eq (by simp [declared, h, SupState.fed])]
    simp only [port_porting, porting_porting]
  · rw [onHook_waiting h, abandon_eq (by simp [declared, h, SupState.fed])]
    simp only [port_porting, porting_porting]
    rfl
  · rw [onHook_bound h]
    have hfed : ((porting s p (declared (s.port p) .on .atRest)).port p).sup.fed = true := by
      simp [declared, h, SupState.fed]
    have hholds : Holds (porting s p (declared (s.port p) .on .atRest)) p e b := hh
    rw [onHookBound_lineClear hholds hp hn hfed]
    simp only [port_porting, porting_porting]
    rfl

end Sys2Proof.Machine
end

section
/-!
PROOFS. SET_CADENCE, READ_CADENCE and SEGMENT_END (R112, R113, R115): which numbers name a cadence, what the clamp of a
list of durations comes to, and each command's outcomes.
-/
namespace Sys2Proof.Machine

open Sys2Proof.Safety

/-! ## Numbers and durations -/

theorem cadenceOfNumber_val (n : CadenceNo) : cadenceOfNumber n.val = some n := dif_pos n.isLt

theorem cadenceOfNumber_over {n : Nat} (h : 4 ≤ n) : cadenceOfNumber n = none := dif_neg (by omega)

theorem clamp_eq_self_iff {lo hi v : Nat} (h : lo ≤ hi) : clamp lo hi v = v ↔ lo ≤ v ∧ v ≤ hi := by
  unfold clamp
  omega

/-- A list is left as it is by the clamp exactly when every element is in range: the test behind OK and CLAMPED. -/
theorem map_clamp_eq_self_iff {lo hi : Nat} (h : lo ≤ hi) (ds : List Nat) :
    ds.map (clamp lo hi) = ds ↔ ∀ d ∈ ds, lo ≤ d ∧ d ≤ hi := by
  calc ds.map (clamp lo hi) = ds ↔ ds.map (clamp lo hi) = ds.map id := by rw [List.map_id]
    _ ↔ ∀ d ∈ ds, clamp lo hi d = d := List.map_inj_left
    _ ↔ ∀ d ∈ ds, lo ≤ d ∧ d ≤ hi := forall₂_congr fun _ _ => clamp_eq_self_iff h

theorem mem_segmentCounts {k : Nat} : k ∈ [2, 4, 6] ↔ k = 2 ∨ k = 4 ∨ k = 6 := by simp

/-! ## SET_CADENCE (R113) -/

theorem exec_setCadence (tag n : Nat) (ds : List Nat) (s : State) :
    exec (.setCadence tag n ds) s = execSetCadence tag n ds s := rfl

section
variable {s : State} (hl : Listening s) (hq : Quiet s) (tag : Nat)
include hl hq

theorem setCadence_busy (hb : s.engine ≠ .idle) (n : Nat) (ds : List Nat) :
    exec (.setCadence tag n ds) s = .next (answering s [.ack tag .busy]) :=
  (exec_setCadence tag n ds s).trans (takeMessage_provision_busy hl hq hb tag _)

theorem setCadence_badValue (hi : s.engine = .idle) {n : Nat} {ds : List Nat} (h : 4 ≤ n ∨ ds.length ∉ [2, 4, 6]) :
    exec (.setCadence tag n ds) s = .next (answering s [.ack tag .badValue]) := by
  rw [exec_setCadence]
  refine (takeMessage_provision_idle hl hi tag _).trans ?_
  rw [← ack_taken hl hq]
  rcases h with hn | hd
  · rw [cadenceOfNumber_over hn]
  · rw [mem_segmentCounts] at hd
    simp only [if_neg hd]
    split <;> rfl

/-- Taking the message and storing the cadence can be done in either order, so what is left is the plain ACK of the state
with the new cadence. -/
theorem setCadence_stored (hi : s.engine = .idle) (n : CadenceNo) {ds : List Nat} (hd : ds.length ∈ [2, 4, 6]) :
    exec (.setCadence tag n.val ds) s =
      .next { answering s [.ack tag (if ∀ d ∈ ds, 1 ≤ d ∧ d ≤ 100 then .ok else .clamped)] with
        cadences := s.cadences.set n (ds.map (clamp 1 100)) } := by
  rw [exec_setCadence]
  refine (takeMessage_provision_idle hl hi tag _).trans ?_
  simp only [cadenceOfNumber_val, if_pos (mem_segmentCounts.mp hd), map_clamp_eq_self_iff (by decide : 1 ≤ 100)]
  exact congrArg Host.Outcome.next
    (ack_taken (s := { s with cadences := s.cadences.set n (ds.map (clamp 1 100)) }) hl hq tag _)

end

/-! ## READ_CADENCE (R115) -/

theorem exec_readCadence (tag n : Nat) (s : State) :
    exec (.readCadence tag n) s = execReadCadence tag n s := rfl

section
variable {s : State} (hl : Listening s) (hq : Quiet s) (tag : Nat)
include hl hq

theorem readCadence_badValue {n : Nat} (hn : 4 ≤ n) :
    exec (.readCadence tag n) s = .next (answering s [.ack tag .badValue]) := by
  rw [exec_readCadence]
  refine (takeMessage_listening hl _).trans ?_
  rw [cadenceOfNumber_over hn, ← ack_taken hl hq]

/-- The reply shows the table and the budget as they stood before the message was taken, whatever the engine does. -/
theorem readCadence_data (n : CadenceNo) :
    exec (.readCadence tag n.val) s =
      .next (answering s
        [.cadenceData tag
          { cadence := n, durations := s.cadences[n], g := s.params.g, available := s.available,
            committed := s.committed, queue := s.ringQueue.map (·.handle),
            ringing := s.ringList.map fun r => (r.handle, r.segment) }]) := by
  rw [exec_readCadence]
  refine (takeMessage_listening hl _).trans ?_
  rw [cadenceOfNumber_val, ← reply_taken hl hq]
  rfl

end

/-! ## SEGMENT_END (R112) -/

/-- A segment end takes the entries of its handle to the next segment and leaves everything else. -/
theorem exec_segmentEnd (s : State) (h : Nat) :
    exec (.segmentEnd h) s =
      .next { s with ringList := s.ringList.map fun r => if r.handle = h then s.nextSegment r else r } := rfl

/-- Settles O33: the outcomes of SET_CADENCE in the order of its checks, those of READ_CADENCE, and SEGMENT_END, where the
statement writes out `State.nextSegment`. -/
theorem cadencesRun : Obligations.CadencesRun := by
  refine ⟨fun s tag hl hq => ⟨?_, ?_, ?_, ?_, ?_⟩, exec_segmentEnd⟩
  · exact fun n ds hb => setCadence_busy hl hq tag hb n ds
  · exact fun n ds hi h => setCadence_badValue hl hq tag hi h
  · exact fun n ds hi hd => setCadence_stored hl hq tag hi n hd
  · exact fun n hn => readCadence_badValue hl hq tag hn
  · exact fun n => readCadence_data hl hq tag n

end Sys2Proof.Machine
end

section
/-!
PROOFS. Invalid readings (R148, R150): which readings a sensor cannot give, which readings are ignored, and what an
invalid one comes to on either channel.
-/
namespace Sys2Proof.Machine

open Sys2Proof.Safety

/-! ## Out of range (R148) -/

theorem validReading_battery_eq_false_iff {v : Int} : validReading .battery v = false ↔ v < 200 ∨ 700 < v := by
  simp only [validReading, Bool.and_eq_false_iff, decide_eq_false_iff_not, Int.not_le]

theorem validReading_temperature_eq_false_iff {v : Int} : validReading .temperature v = false ↔ v < -50 ∨ 100 < v := by
  simp only [validReading, Bool.and_eq_false_iff, decide_eq_false_iff_not, Int.not_le]

section
variable {s : State} (c : Channel)

/-! ## Which step a reading takes (R148, R164) -/

theorem exec_senseReading (v : Option Int) : exec (.senseReading c v) s = execSenseReading c v s := rfl

theorem exec_senseReading_ignored (h : s.storeClearing = true ∨ s.channelOn c = false) (v : Option Int) :
    exec (.senseReading c v) s = .next s := by
  rw [exec_senseReading]
  unfold execSenseReading
  rw [if_pos (by simpa using h)]

/-- An absent reading is invalid, as one out of range is. -/
theorem exec_senseReading_invalid (hc : s.storeClearing = false) (hon : s.channelOn c = true) {v : Option Int}
    (hv : ∀ x ∈ v, validReading c x = false) : exec (.senseReading c v) s = .next (s.invalidStep c) := by
  rw [exec_senseReading]
  unfold execSenseReading
  rw [if_neg (by simp [hc, hon])]
  cases v with
  | none => rfl
  | some x => simp only [hv x rfl, Bool.false_eq_true, if_false]

/-! ## The invalid step (R150) -/

theorem runCount_full_iff {n : Nat} : min (n + 1) 5 = 5 ↔ 4 ≤ n := by omega

/-- The run count and the fault flag of the channel are written, and SENSE(FAULT) leaves when the count is full and the
flag was clear. -/
theorem invalidStep_eq (hq : s.out.holding = false) :
    s.invalidStep c =
      telling
        { s with
          sense := s.sense.setFault c (min (s.sense.run c + 1) 5) (s.sense.fault c || decide (4 ≤ s.sense.run c)) }
        (if 4 ≤ s.sense.run c ∧ s.sense.fault c = false then [.sense c .fault] else []) := by
  simp only [State.invalidStep, runCount_full_iff]
  rw [← sends_quiet]
  · split <;> rfl
  · exact hq

end

/-- Settles O40: the invalid step on either channel, then the readings that are ignored. -/
theorem invalidReadings : Obligations.InvalidReadings := by
  refine fun s hq hc => ⟨fun v hon hv => ?_, fun v hon hv => ?_, fun v hoff => ?_, fun v hoff => ?_, fun c v left => ?_⟩
  · have invalid x (hx : x ∈ v) := validReading_battery_eq_false_iff.mpr (hv x hx)
    rw [exec_senseReading_invalid .battery hc hon invalid, invalidStep_eq _ hq.2]
    rfl
  · have invalid x (hx : x ∈ v) := validReading_temperature_eq_false_iff.mpr (hv x hx)
    rw [exec_senseReading_invalid .temperature hc hon invalid, invalidStep_eq _ hq.2]
    rfl
  · exact exec_senseReading_ignored .battery (.inr hoff) v
  · exact exec_senseReading_ignored .temperature (.inr hoff) v
  · exact exec_senseReading_ignored c (.inl rfl) v

end Sys2Proof.Machine
end

section
/-!
PROOFS. SET_CURSOR, SET_ADVANCE and the cursor's step (R198, R199): each request's outcomes in the order of its checks.
-/
namespace Sys2Proof.Machine

open Sys2Proof.Safety

/-! ## The cursor's step (R199) -/

theorem cursorStep_up_val (p : PortNo) : (cursorStep .up p).val = if p.val = 47 then 0 else p.val + 1 := by
  have last : p = Fin.last 47 ↔ p.val = 47 := Fin.ext_iff
  simp only [cursorStep, Fin.val_add_one, last]

theorem cursorStep_down_val (p : PortNo) : (cursorStep .down p).val = if p.val = 0 then 47 else p.val - 1 := by
  have stepped : (p - 1).val = (48 - 1 + p.val) % 48 := rfl
  simp only [cursorStep, stepped]
  split <;> omega

/-! ## Directions (R188, R199) -/

theorem directionOfOctet_over {d : Nat} (h : 2 ≤ d) : directionOfOctet d = none := by
  obtain ⟨k, rfl⟩ := Nat.exists_eq_add_of_le' h
  rfl

section
variable {s : State} (hl : Listening s) (hq : Quiet s) (tag : Nat)
include hl hq

/-! ## SET_CURSOR (R198) -/

/-- Taking the message and writing the cursor can be done in either order, so what is left is the plain ACK of the state
with the new cursor. -/
theorem setCursor_idle (hi : s.engine = .idle) (v : Nat) :
    exec (.setCursor tag v) s =
      .next { answering s [.ack tag (if 47 < v then .clamped else .ok)] with cursor := ⟨min v 47, by omega⟩ } :=
  (takeMessage_provision_idle hl hi tag _).trans
    (congrArg Host.Outcome.next (ack_taken (s := { s with cursor := ⟨min v 47, by omega⟩ }) hl hq tag _))

theorem setCursor_inRange (hi : s.engine = .idle) {v : Nat} (h : v < 48) :
    exec (.setCursor tag v) s = .next { answering s [.ack tag .ok] with cursor := ⟨v, h⟩ } := by
  have hv : min v 47 = v := by omega
  simp only [setCursor_idle hl hq tag hi, if_neg (by omega : ¬ 47 < v), hv]

theorem setCursor_clamped (hi : s.engine = .idle) {v : Nat} (h : 48 ≤ v) :
    exec (.setCursor tag v) s = .next { answering s [.ack tag .clamped] with cursor := 47 } := by
  have hv : min v 47 = 47 := by omega
  simp only [setCursor_idle hl hq tag hi, if_pos (by omega : 47 < v), hv]
  rfl

theorem setCursor_busy (hb : s.engine ≠ .idle) (v : Nat) :
    exec (.setCursor tag v) s = .next (answering s [.ack tag .busy]) :=
  takeMessage_provision_busy hl hq hb tag _

/-! ## SET_ADVANCE (R199) -/

theorem setAdvance_stored (hi : s.engine = .idle) (w r : Bool) {d : Nat} {direction : CursorDirection}
    (hd : directionOfOctet d = some direction) :
    exec (.setAdvance tag w r d) s =
      .next { answering s [.ack tag .ok] with advance := { write := w, read := r, direction := direction } } := by
  refine (takeMessage_provision_idle hl hi tag _).trans ?_
  rw [hd]
  exact congrArg Host.Outcome.next
    (ack_taken (s := { s with advance := { write := w, read := r, direction := direction } }) hl hq tag .ok)

theorem setAdvance_badValue (hi : s.engine = .idle) (w r : Bool) {d : Nat} (hd : 2 ≤ d) :
    exec (.setAdvance tag w r d) s = .next (answering s [.ack tag .badValue]) := by
  refine (takeMessage_provision_idle hl hi tag _).trans ?_
  rw [directionOfOctet_over hd, ← ack_taken hl hq]

theorem setAdvance_busy (hb : s.engine ≠ .idle) (w r : Bool) (d : Nat) :
    exec (.setAdvance tag w r d) s = .next (answering s [.ack tag .busy]) :=
  takeMessage_provision_busy hl hq hb tag _

end

/-- Settles O10: the step of the cursor, then the outcomes of SET_CURSOR and of SET_ADVANCE. -/
theorem cursorRequests : Obligations.CursorRequests := by
  refine ⟨fun p => ⟨cursorStep_up_val p, cursorStep_down_val p⟩, rfl, fun s tag hl hq => ⟨?_, ?_, ?_, ?_, ?_, ?_, ?_⟩⟩
  · exact fun v h hi => setCursor_inRange hl hq tag hi h
  · exact fun v h hi => setCursor_clamped hl hq tag hi h
  · exact fun v hb => setCursor_busy hl hq tag hb v
  · exact fun w r hi => setAdvance_stored hl hq tag hi w r rfl
  · exact fun w r hi => setAdvance_stored hl hq tag hi w r rfl
  · exact fun w r d hd hi => setAdvance_badValue hl hq tag hi w r hd
  · exact fun w r d hb => setAdvance_busy hl hq tag hb w r d

end Sys2Proof.Machine
end

section
/-!
PROOFS. READ_PARAM, READ_COUNTERS and QUERY_LINE (R203, R205, R46): the bodies of their replies, and what each leaves.
-/
namespace Sys2Proof.Machine

open Sys2Proof.Safety

/-! ## The bodies of PARAM_DATA and COUNTER_DATA -/

/-- The values of the parameters in the order of their table, an on-off parameter as 0 or 1 (11.4, R203). -/
theorem map_get_allParams (q : Params) :
    allParams.map q.get =
      [q.g, q.bFull, q.bCut, q.bConserve, q.bSurvive, q.tHot, q.tTrip, q.reserve, q.tAccept, q.tWait, q.tRingwait,
        q.tRingmax, q.tRelease, q.tTest, if q.tone = true then 1 else 0, if q.battery = true then 1 else 0,
        if q.temperature = true then 1 else 0] := rfl

theorem paramData_parts (tag : Nat) (q : Params) :
    (Message.paramData tag q).parts = (38, tag, (allParams.map q.get).flatMap toOctets2) := by
  rw [List.flatMap_map]
  rfl

theorem counterData_parts (tag : Nat) (c : Counters) :
    (Message.counterData tag c).parts = (39, tag, c.values.flatMap toOctets2) := rfl

/-! ## The state of a line (R46) -/

theorem reportedHook_eq (s : State) (p : PortNo) :
    s.reportedHook p = if (s.port p).sup = .vacant ∨ (s.port p).sup = .parked then .on else (s.port p).hook := by
  cases h : (s.port p).sup <;> simp [State.reportedHook, h]

theorem taken_lineStateView (s : State) (p : PortNo) : s.taken.lineStateView p = s.lineStateView p := rfl

theorem resolveNoCursor_eq {a : Address} (h : a ≠ .cursor) (s : State) : s.resolveNoCursor a = s.resolve a := by
  cases a
  case cursor => exact absurd rfl h
  all_goals rfl

/-! ## The three reads -/

theorem exec_readParam (tag : Nat) (s : State) : exec (.readParam tag) s = execReadParam tag s := rfl

theorem exec_readCounters (tag : Nat) (clearAfter : Bool) (s : State) :
    exec (.readCounters tag clearAfter) s = execReadCounters tag clearAfter s := rfl

theorem exec_queryLine (tag : Nat) (a : Address) (s : State) : exec (.queryLine tag a) s = execQueryLine tag a s := rfl

section
variable {s : State} (hl : Listening s) (hq : Quiet s) (tag : Nat)
include hl hq

theorem readParam_data : exec (.readParam tag) s = .next (answering s [.paramData tag s.params]) := by
  rw [exec_readParam, ← reply_taken hl hq]
  exact takeMessage_listening hl _

theorem readCounters_kept : exec (.readCounters tag false) s = .next (answering s [.counterData tag s.counters]) := by
  rw [exec_readCounters, ← reply_taken hl hq]
  exact takeMessage_listening hl _

/-- The reply is formed before the counters are cleared, so it shows them as they stood (R205). -/
theorem readCounters_cleared :
    exec (.readCounters tag true) s =
      .next { answering s [.counterData tag s.counters] with counters := Counters.zero } := by
  rw [exec_readCounters, ← reply_taken hl hq]
  exact takeMessage_listening hl _

theorem queryLine_data {a : Address} {p : PortNo} (ha : s.resolve a = .port p) (hc : a ≠ .cursor) (hr : Reads s p) :
    exec (.queryLine tag a) s = .next (answering s [.lineState tag (s.lineStateView p)]) := by
  have undamaged : ((s.line p).damaged && !(s.line p).withdrawn) = false := by
    rcases hr with h | h <;> simp [h]
  rw [exec_queryLine, ← reply_taken hl hq]
  refine (takeMessage_listening hl _).trans ?_
  simp only [resolveNoCursor_eq hc, taken_resolve, ha, taken_line, undamaged, taken_lineStateView,
    Bool.false_eq_true, if_false]

end

/-- Settles O39: the two bodies, the reads, and LINE_STATE, where the statement writes out `State.lineStateView`. -/
theorem stateIsReported : Obligations.StateIsReported := by
  refine ⟨fun tag q => ?_, counterData_parts, fun s tag hl hq => ⟨?_, ?_, ?_, fun a p ha hc hr => ?_⟩⟩
  · rw [paramData_parts, map_get_allParams]
    rfl
  · exact readParam_data hl hq tag
  · exact readCounters_kept hl hq tag
  · exact readCounters_cleared hl hq tag
  · rw [queryLine_data hl hq tag ha hc hr, ← reportedHook_eq]
    rfl

end Sys2Proof.Machine
end

section
/-!
PROOFS. What has been sent stays sent: no call, queue or failure operation and no change of the power state takes back a
message handed to the framer (R192): after each of them the messages sent begin with those sent before.
-/
namespace Sys2Proof.Machine

variable (s : State)

/-! ## The way out -/

theorem sent_send (m : Message) : s.out.sent <+: (s.send m).out.sent := by
  unfold State.send
  split
  · split
    · exact List.prefix_rfl
    · exact List.prefix_append _ _
  · exact List.prefix_rfl

theorem sent_sendNow (m : Message) : s.out.sent <+: (s.sendNow m).out.sent := by
  unfold State.sendNow
  split
  · exact List.prefix_append _ _
  · exact List.prefix_rfl

theorem sent_release : s.out.sent <+: s.release.out.sent := List.prefix_append _ _

/-- A fold keeps what was sent when each of its steps does. -/
theorem sent_foldl {α : Type} (f : State → α → State) (h : ∀ t a, t.out.sent <+: (f t a).out.sent) (xs : List α) :
    s.out.sent <+: (xs.foldl f s).out.sent := by
  induction xs generalizing s with
  | nil => exact List.prefix_rfl
  | cons x xs ih => exact (h s x).trans (ih (f s x))

theorem sent_reporting (own : List Message) (f : State → State) (h : ∀ t, t.out.sent <+: (f t).out.sent) :
    s.out.sent <+: (s.reporting own f).out.sent := by
  unfold State.reporting
  split
  · exact (sent_foldl s _ sent_send own).trans (h _)
  · exact ((sent_foldl s.hold _ sent_send own).trans (h _)).trans (sent_release _)

/-! ## Failures and the budget pass -/

theorem sent_leaveRinging (after : State → State) (h : Nat) (ha : ∀ t, t.out.sent <+: (after t).out.sent) :
    s.out.sent <+: (s.leaveRinging after h).out.sent := by
  unfold State.leaveRinging
  split
  · exact ha ((s.dropQueued h).dropRinging h)
  · exact List.prefix_rfl

/-- A port is quarantined without a message. -/
theorem sent_quarantine (p : PortNo) : s.out.sent <+: (s.quarantine p).out.sent := by simp

theorem sent_lineActionsRetiring (p : PortNo) (h : Nat) : s.out.sent <+: (s.lineActionsRetiring p h).out.sent :=
  sent_reporting (s.countFault.withdraw p) _ _ fun t => sent_quarantine t p

theorem sent_completeCease (p : PortNo) (h : Nat) : s.out.sent <+: (s.completeCease p h).out.sent := by
  unfold State.completeCease
  dsimp only
  split
  · split
    · exact sent_lineActionsRetiring s p h
    · split
      · exact sent_send (((s.leaveQueue p).vacate p).mark p false) _
      · exact sent_send ((((s.leaveQueue p).vacate p).mark p false).place p .vacant) _
  · exact List.prefix_rfl

theorem sent_retireFailed (after : State → State) (e : EntryNo) (b : Binding) (h : Nat)
    (ha : ∀ t, t.out.sent <+: (after t).out.sent) : s.out.sent <+: (s.retireFailed after e b h).out.sent := by
  refine (sent_leaveRinging s after b.handle ha).trans ?_
  unfold State.retireFailed
  refine List.IsPrefix.trans ?_ (sent_completeCease _ _ _)
  simp

theorem sent_failEntry (after : State → State) (outer : Nat → List Message) (e : EntryNo)
    (ha : ∀ t, t.out.sent <+: (after t).out.sent) : s.out.sent <+: (s.failEntry after outer e).out.sent := by
  unfold State.failEntry
  dsimp only
  split
  · exact sent_reporting s.countFault _ _ fun _ => List.prefix_rfl
  · split
    · exact sent_reporting s.countFault.countFault _ _ fun t => sent_retireFailed t after e _ _ ha
    · exact (sent_sendNow s.countFault _).trans
        (sent_reporting _ _ _ fun t => sent_retireFailed t after e _ _ ha)

theorem sent_shedTail (r : RingEntry) : s.out.sent <+: (s.shedTail r).out.sent := by
  unfold State.shedTail
  split
  · exact List.prefix_rfl
  · split
    · exact sent_failEntry s _ _ _ fun _ => List.prefix_rfl
    · exact List.prefix_rfl

theorem sent_shedStep (fuel : Nat) : s.out.sent <+: (s.shedStep fuel).out.sent := by
  induction fuel generalizing s with
  | zero => exact List.prefix_rfl
  | succ fuel ih =>
    unfold State.shedStep
    split
    · split
      · exact (sent_shedTail s _).trans (ih _)
      · exact List.prefix_rfl
    · exact List.prefix_rfl

theorem sent_startHead (q : QueueEntry) : s.out.sent <+: (s.startHead q).out.sent := by
  unfold State.startHead
  split
  · exact List.prefix_rfl
  · split
    · exact sent_failEntry s _ _ _ fun _ => List.prefix_rfl
    · exact List.prefix_rfl

theorem sent_admitStep (fuel : Nat) : s.out.sent <+: (s.admitStep fuel).out.sent := by
  induction fuel generalizing s with
  | zero => exact List.prefix_rfl
  | succ fuel ih =>
    unfold State.admitStep
    split
    · split
      · exact (sent_startHead s _).trans (ih _)
      · exact List.prefix_rfl
    · exact List.prefix_rfl

theorem sent_budgetPass : s.out.sent <+: s.budgetPass.out.sent := (sent_shedStep s _).trans (sent_admitStep _ _)

theorem sent_lineActions (p : PortNo) : s.out.sent <+: (s.lineActions p).out.sent := by
  unfold State.lineActions
  dsimp only
  split
  · split
    · exact sent_reporting (s.countFault.withdraw p) _ _ fun t => sent_quarantine t p
    · split
      · exact (sent_failEntry (s.countFault.withdraw p) _ _ _ sent_budgetPass).trans (sent_quarantine _ p)
      · refine (sent_sendNow (s.countFault.withdraw p) _).trans (sent_reporting _ _ _ fun t => ?_)
        refine List.IsPrefix.trans ?_ (sent_leaveRinging _ _ _ sent_budgetPass)
        simp
  · exact sent_reporting (s.countFault.withdraw p) _ _ fun t => sent_quarantine t p

/-! ## OWQ service -/

theorem sent_allocate (c : LineClass) (fuel : Nat) : s.out.sent <+: (s.allocate c fuel).1.out.sent := by
  induction fuel generalizing s with
  | zero => exact List.prefix_rfl
  | succ fuel ih =>
    unfold State.allocate
    split
    · split
      · next n _ _ =>
        split
        · exact (sent_reporting (s.countFault.suspect n) _ id fun _ => List.prefix_rfl).trans (ih _)
        · exact List.prefix_rfl
      · exact List.prefix_rfl
    · exact List.prefix_rfl

theorem sent_create (n : SlotNo) (make : Nat → Binding) (p : PortNo) (andThen : Binding → State → State)
    (h : ∀ b t, t.out.sent <+: (andThen b t).out.sent) : s.out.sent <+: (s.create n make p andThen).out.sent := by
  unfold State.create
  split
  · exact List.prefix_rfl
  · refine List.IsPrefix.trans ?_ (h _ _)
    exact List.prefix_rfl

theorem sent_seize (p : PortNo) (n : SlotNo) : s.out.sent <+: (s.seize p n).out.sent :=
  sent_create s n _ p _ fun _ t => sent_send t _

theorem sent_serviceScan (fuel : Nat) (ps : List PortNo) : s.out.sent <+: (s.serviceScan fuel ps).out.sent := by
  induction fuel generalizing s ps with
  | zero => exact List.prefix_rfl
  | succ fuel ih =>
    cases ps with
    | nil => exact List.prefix_rfl
    | cons p rest =>
      unfold State.serviceScan
      split
      · exact List.prefix_rfl
      iterate 4
        split
        · exact ih s rest
      split
      · exact (sent_lineActions s p).trans (ih _ rest)
      have admitted : s.out.sent <+: (s.admitSlot (s.line p).cls).1.out.sent := sent_allocate s _ _
      split
      · next t e => rw [e] at admitted; exact admitted.trans (ih t rest)
      · next t n e =>
        rw [e] at admitted
        exact (admitted.trans (sent_seize (t.leaveQueue p) p n)).trans (ih _ _)

theorem sent_service : s.out.sent <+: s.service.out.sent := sent_serviceScan s _ _

/-! ## Power -/

theorem sent_parkPort (p : PortNo) : s.out.sent <+: (s.parkPort p).out.sent := by
  unfold State.parkPort
  split
  · exact List.prefix_rfl
  split
  · exact sent_lineActions s p
  split
  · split <;> simp
  · exact List.prefix_rfl

theorem sent_unparkPort (p : PortNo) : s.out.sent <+: (s.unparkPort p).out.sent := by
  unfold State.unparkPort
  dsimp only
  split <;> simp

theorem sent_enterPower (after : PowerState) : s.out.sent <+: (s.enterPower after).out.sent := by
  unfold State.enterPower
  dsimp only
  split
  · refine List.IsPrefix.trans ?_ (sent_foldl _ _ sent_parkPort allPorts)
    exact List.prefix_rfl
  split
  · refine List.IsPrefix.trans ?_ (sent_foldl _ _ sent_unparkPort allPorts)
    exact List.prefix_rfl
  · exact List.prefix_rfl

theorem sent_reportPower (before : Sense) : s.out.sent <+: (s.reportPower before).out.sent := by
  unfold State.reportPower
  split
  · exact List.prefix_rfl
  · exact sent_send s _

end Sys2Proof.Machine
end

section
/-!
PROOFS. SET_PARAM (R201): the parameter table against the model's parameters, what the effects of a stored parameter
keep, and each outcome of the request.
-/
namespace Sys2Proof.Machine

open Sys2Proof.Safety

/-! ## One parameter and the others -/

/-- An on-off parameter holds no more than 0 and 1, so a value within the range is read back as it was set. -/
theorem Params.get_set_same (q : Params) {p : Param} {v : Nat} (h : v ≤ p.range.2) : (q.set p v).get p = v := by
  have flag (hv : v ≤ 1) : ofFlag (decide (v ≠ 0)) = v := by
    match v, hv with
    | 0, _ => rfl
    | 1, _ => rfl
  cases p with
  | tone | battery | temperature => exact flag h
  | _ => rfl

/-- The parameters are fields of their own. -/
theorem Params.get_set_other (q : Params) {p r : Param} (h : r ≠ p) (v : Nat) : (q.set p v).get r = q.get r := by
  cases p <;> cases r <;> trivial

theorem Params.ordered_iff (q : Params) : q.ordered = true ↔ InOrder q := by
  simp only [Params.ordered, InOrder, Bool.and_eq_true, decide_eq_true_eq, and_assoc]

/-! ## The parameter table -/

theorem paramTable_range : ∀ i : Fin 17, paramTable[i].1.range = paramTable[i].2 := by decide

theorem paramTable_lo_le_hi : ∀ i : Fin 17, paramTable[i].2.1 ≤ paramTable[i].2.2 := by decide

theorem paramTable_inj : ∀ i j : Fin 17, paramTable[j].1 = paramTable[i].1 ↔ j = i := by decide

theorem paramOfOctet_val : ∀ i : Fin 17, paramOfOctet i.val = some paramTable[i].1 := by decide

theorem paramOfOctet_over {n : Nat} (h : 17 ≤ n) : paramOfOctet n = none := List.getElem?_eq_none h

theorem get_set_paramTable (q : Params) (i j : Fin 17) {v : Nat} (h : v ≤ paramTable[i].2.2) :
    (q.set paramTable[i].1 v).get paramTable[j].1 = if j = i then v else q.get paramTable[j].1 := by
  by_cases hj : j = i
  · rw [if_pos hj, hj]
    exact Params.get_set_same q (by rwa [paramTable_range])
  · rw [if_neg hj]
    exact Params.get_set_other q (mt (paramTable_inj i j).mp hj) v

theorem set_clampValue_eq_stored (s : State) (i : Fin 17) (value : Nat) :
    s.params.set paramTable[i].1 (paramTable[i].1.clampValue value) = stored s i value := by
  simp only [Param.clampValue, paramTable_range]
  rfl

theorem clampValue_eq_self_iff (i : Fin 17) {value : Nat} :
    paramTable[i].1.clampValue value = value ↔ paramTable[i].2.1 ≤ value ∧ value ≤ paramTable[i].2.2 := by
  simp only [Param.clampValue, paramTable_range]
  exact clamp_eq_self_iff (paramTable_lo_le_hi i)

/-! ## What a stored parameter sets off (R202) -/

section
variable (s : State)

theorem params_of_still {s t : State} (h : t.still = s.still) : t.params = s.params := congrArg Still.params h

theorem still_parkPort (p : PortNo) : (s.parkPort p).still = s.still := by
  unfold State.parkPort
  split
  · rfl
  split
  · exact still_lineActions s p
  split
  · split <;> rfl
  · rfl

theorem still_unparkPort (p : PortNo) : (s.unparkPort p).still = s.still := by
  unfold State.unparkPort
  dsimp only
  split <;> rfl

theorem enterPower_params (after : PowerState) : (s.enterPower after).params = s.params := by
  unfold State.enterPower
  dsimp only
  split
  · exact (params_of_still (still_foldl _ _ still_parkPort allPorts)).trans rfl
  split
  · exact (params_of_still (still_foldl _ _ still_unparkPort allPorts)).trans rfl
  · rfl

theorem recompute_params : s.recompute.params = s.params :=
  congrArg Still.params (still_budgetPass { s with available := s.capacity })

theorem channelChanged_params (c : Channel) (changed : Bool) : (s.channelChanged c changed).params = s.params := by
  unfold State.channelChanged
  split <;> rfl

theorem reportPower_params (before : Sense) : (s.reportPower before).params = s.params := by
  unfold State.reportPower
  split
  · rfl
  · exact params_of_still (still_send s _)

theorem sent_recompute : s.out.sent <+: s.recompute.out.sent := sent_budgetPass { s with available := s.capacity }

theorem channelChanged_out (c : Channel) (changed : Bool) : (s.channelChanged c changed).out = s.out := by
  unfold State.channelChanged
  split <;> rfl

theorem sent_channelChanged_recompute (c : Channel) (changed : Bool) :
    s.out.sent <+: (s.channelChanged c changed).recompute.out.sent := by
  rw [← channelChanged_out s c changed]
  exact sent_recompute _

/-- No effect of a parameter writes a parameter. -/
theorem paramEffects_params (p : Param) (before : Params) : (s.paramEffects p before).params = s.params := by
  cases p with
  | g | bFull | bCut | tHot | tTrip => exact recompute_params s
  | reserve =>
    dsimp only [State.paramEffects]
    split
    · exact params_of_still (still_service s)
    · rfl
  | battery =>
    dsimp only [State.paramEffects]
    split
    · rw [enterPower_params, recompute_params, channelChanged_params]
    · rw [recompute_params, channelChanged_params]
  | temperature => exact (recompute_params _).trans (channelChanged_params s _ _)
  | _ => rfl

theorem sent_paramEffects (p : Param) (before : Params) : s.out.sent <+: (s.paramEffects p before).out.sent := by
  cases p with
  | g | bFull | bCut | tHot | tTrip => exact sent_recompute s
  | reserve =>
    dsimp only [State.paramEffects]
    split
    · exact sent_service s
    · exact List.prefix_rfl
  | battery =>
    dsimp only [State.paramEffects]
    split
    · exact (sent_channelChanged_recompute s _ _).trans (sent_enterPower _ _)
    · exact sent_channelChanged_recompute s _ _
  | temperature => exact sent_channelChanged_recompute s _ _
  | _ => exact List.prefix_rfl

/-- B_conserve, B_survive, the timers and the tone are read only at a later event (R202). -/
theorem paramEffects_later {i : Fin 17} (h : i.val ∈ [3, 4, 8, 9, 10, 11, 12, 13, 14]) (before : Params) :
    s.paramEffects paramTable[i].1 before = s := by
  obtain ⟨n, hn⟩ := i
  simp only [List.mem_cons, List.not_mem_nil, or_false] at h
  rcases h with rfl | rfl | rfl | rfl | rfl | rfl | rfl | rfl | rfl <;> rfl

end

/-! ## The request (R201) -/

theorem exec_setParam (tag n value : Nat) (s : State) :
    exec (.setParam tag n value) s = execSetParam tag n value s := rfl

/-- The value stored and the ACK sent, before the effects of R202. -/
def paramStored (s : State) (tag : Nat) (i : Fin 17) (value : Nat) : State :=
  { answering s [storedAck tag i value] with params := stored s i value }

section
variable {s : State} (hl : Listening s) (hq : Quiet s) (tag value : Nat)
include hl hq

/-- The ACK alone already leaves the way out at rest. -/
theorem ack_taken_answering (c : Code) : s.taken.ack tag c = answering s [.ack tag c] := by
  rw [← ack_taken hl hq]
  exact (release_quiet ⟨rfl, rfl⟩).symm

theorem setParam_busy (hb : s.engine ≠ .idle) (n : Nat) :
    exec (.setParam tag n value) s = .next (answering s [.ack tag .busy]) :=
  (exec_setParam tag n value s).trans (takeMessage_provision_busy hl hq hb tag _)

theorem setParam_badParam (hi : s.engine = .idle) {n : Nat} (h : 17 ≤ n) :
    exec (.setParam tag n value) s = .next (answering s [.ack tag .badValue]) := by
  rw [exec_setParam, ← ack_taken hl hq]
  refine (takeMessage_provision_idle hl hi tag _).trans ?_
  rw [paramOfOctet_over h]

theorem setParam_badOrder (hi : s.engine = .idle) (i : Fin 17) (h : ¬ InOrder (stored s i value)) :
    exec (.setParam tag i.val value) s = .next (answering s [.ack tag .badValue]) := by
  rw [exec_setParam, ← ack_taken hl hq]
  refine (takeMessage_provision_idle hl hi tag _).trans ?_
  rw [← Params.ordered_iff, ← set_clampValue_eq_stored] at h
  simp only [paramOfOctet_val]
  exact congrArg (fun t : State => Host.Outcome.next t.release) (if_neg h)

/-- Taking the message and storing the value can be done in either order, so the effects start from the state with the
value stored and the ACK sent. -/
theorem setParam_stored (hi : s.engine = .idle) (i : Fin 17) (h : InOrder (stored s i value)) :
    exec (.setParam tag i.val value) s =
      .next (((paramStored s tag i value).paramEffects paramTable[i].1 s.params).reportPower s.sense).release := by
  have acked : { s.taken with params := stored s i value }.ack tag
      (if paramTable[i].1.clampValue value = value then .ok else .clamped) = paramStored s tag i value := by
    simp only [clampValue_eq_self_iff]
    exact ack_taken_answering (s := { s with params := stored s i value }) hl hq tag _
  rw [exec_setParam, ← acked, ← set_clampValue_eq_stored]
  refine (takeMessage_provision_idle hl hi tag _).trans ?_
  rw [← Params.ordered_iff, ← set_clampValue_eq_stored] at h
  simp only [paramOfOctet_val]
  exact congrArg (fun t : State => Host.Outcome.next t.release) (if_pos h)

/-- Whatever a stored parameter sets off, it is stored and its ACK is the first message of the event. -/
theorem setParam_stored_acked (hi : s.engine = .idle) (i : Fin 17) (h : InOrder (stored s i value)) :
    ∃ t, exec (.setParam tag i.val value) s = .next t ∧ t.params = stored s i value ∧
      s.out.sent ++ [storedAck tag i value] <+: t.out.sent := by
  refine ⟨_, setParam_stored hl hq tag value hi i h, ?_, ?_⟩
  · exact (reportPower_params _ _).trans (paramEffects_params _ _ _)
  · exact ((sent_paramEffects (paramStored s tag i value) _ _).trans (sent_reportPower _ _)).trans (sent_release _)

theorem setParam_later (hi : s.engine = .idle) {i : Fin 17} (h : InOrder (stored s i value))
    (hlater : i.val ∈ [3, 4, 8, 9, 10, 11, 12, 13, 14]) :
    exec (.setParam tag i.val value) s = .next (paramStored s tag i value) := by
  have samePower : (paramStored s tag i value).reportPower s.sense = paramStored s tag i value := if_pos ⟨rfl, rfl⟩
  rw [setParam_stored hl hq tag value hi i h, paramEffects_later _ hlater, samePower,
    release_quiet (t := paramStored s tag i value) hq]

end

/-- Settles O37: the parameter table, then the outcomes of SET_PARAM in the order of its checks. -/
theorem setParamStores : Obligations.SetParamStores := by
  refine ⟨fun q i j v h => get_set_paramTable q i j h, fun s tag value hl hq _ => ⟨?_, ?_, fun i hi => ⟨?_, ?_, ?_⟩⟩⟩
  · exact fun n hb => setParam_busy hl hq tag value hb n
  · exact fun n hi h => setParam_badParam hl hq tag value hi h
  · exact fun h => setParam_badOrder hl hq tag value hi i h
  · exact fun h => setParam_stored_acked hl hq tag value hi i h
  · exact fun h hlater => setParam_later hl hq tag value hi h hlater

end Sys2Proof.Machine
end

section
/-!
PROOFS. What an event can do to the records, the queues and the bus. An event is cut into moves at whose ends the
promises of the five invariants of Safety.lean hold, if they held before; `Move` lists the moves. What no promise looks
at is in no move: two states that differ in it alone are `Alike`.
-/
namespace Sys2Proof.Machine

open Sys2Proof.Safety

/-! ## What the promises look at -/

/-- What the promises look at in a binding. -/
def Binding.ident (b : Binding) : Nat × PortNo × SlotNo × Phase := (b.handle, b.port, b.slot, b.phase)

/-- What they look at in an entry of the ringing list. -/
def RingEntry.ident (r : RingEntry) : Nat × PortNo × Nat := (r.handle, r.port, r.load)

/-- An unfed port has its hook ON and nothing timed (R31). -/
def Port.Rests (q : Port) : Prop := q.sup.fed = false → q.hook = .on ∧ q.classifier = .atRest

/-- The second state differs from the first in nothing that the promises look at. -/
structure Alike (s t : State) : Prop where
  sup : ∀ p, (t.port p).sup = (s.port p).sup
  rests : ∀ p, (s.port p).Rests → (t.port p).Rests
  status : ∀ p, (t.line p).status = (s.line p).status
  key : ∀ p, (t.line p).key = (s.line p).key
  withdrawn : ∀ p, (t.line p).withdrawn = (s.line p).withdrawn
  load : ∀ p, (t.line p).load = (s.line p).load
  keyIndex : t.keyIndex = s.keyIndex
  slotState : ∀ n, (t.slot n).state = (s.slot n).state
  slotHandle : ∀ n, (t.slot n).handle = (s.slot n).handle
  pool : t.pool = s.pool
  nextHandle : t.nextHandle = s.nextHandle
  bindings : ∀ e, (t.entry e).binding.map Binding.ident = (s.entry e).binding.map Binding.ident
  owq : t.owq.map (·.port) = s.owq.map (·.port)
  ringQueue : t.ringQueue = s.ringQueue
  ringList : t.ringList.map RingEntry.ident = s.ringList.map RingEntry.ident
  committed : t.committed = s.committed
  available : t.available = s.available
  bus : t.bus.map (·.port) = s.bus.map (·.port)

/-- The tables, queues and budget of the part. -/
structure Tables where
  ports : Vector Port 48
  lines : Vector LineRecord 48
  keyIndex : Vector (Option Nat) 48
  slots : Vector Slot 15
  pool : List SlotNo
  entries : Vector Entry 15
  nextHandle : Nat
  owq : List Waiting
  ringQueue : List QueueEntry
  ringList : List RingEntry
  committed : Nat
  available : Nat
  bus : Option TestHold

def State.tables (s : State) : Tables :=
  { ports := s.ports, lines := s.lines, keyIndex := s.keyIndex, slots := s.slots, pool := s.pool, entries := s.entries,
    nextHandle := s.nextHandle, owq := s.owq, ringQueue := s.ringQueue, ringList := s.ringList,
    committed := s.committed, available := s.available, bus := s.bus }

theorem Alike.of_tables {s t : State} (h : t.tables = s.tables) : Alike s t := by
  simp only [State.tables, Tables.mk.injEq] at h
  obtain ⟨ports, lines, index, slots, pool, entries, next, owq, queue, ringing, committed, available, bus⟩ := h
  constructor
  case sup => exact fun p => by rw [State.port_congr ports]
  case rests => exact fun p h => by rwa [State.port_congr ports]
  case status => exact fun p => by rw [State.line_congr lines]
  case key => exact fun p => by rw [State.line_congr lines]
  case withdrawn => exact fun p => by rw [State.line_congr lines]
  case load => exact fun p => by rw [State.line_congr lines]
  case slotState => exact fun n => by rw [State.slot_congr slots]
  case slotHandle => exact fun n => by rw [State.slot_congr slots]
  case bindings => exact fun e => by rw [State.entry_congr entries]
  case owq => rw [owq]
  case ringList => rw [ringing]
  case bus => rw [bus]
  all_goals assumption

theorem Alike.refl (s : State) : Alike s s := .of_tables rfl

/-- Writing a port whose supervision state stays, and which still rests if it is unfed. -/
theorem Alike.setPort {s : State} {p : PortNo} {q : Port} (hs : q.sup = (s.port p).sup)
    (hr : (s.port p).Rests → q.Rests) : Alike s (s.setPort p q) where
  sup r := by rw [State.port_setPort]; split <;> simp_all
  rests r h := by rw [State.port_setPort]; split <;> simp_all
  status _ := rfl
  key _ := rfl
  withdrawn _ := rfl
  load _ := rfl
  keyIndex := rfl
  slotState _ := rfl
  slotHandle _ := rfl
  pool := rfl
  nextHandle := rfl
  bindings _ := rfl
  owq := rfl
  ringQueue := rfl
  ringList := rfl
  committed := rfl
  available := rfl
  bus := rfl

/-- Writing an entry with a binding that the promises do not tell from the one it holds. -/
theorem Alike.setEntry {s : State} {e : EntryNo} {r : Entry}
    (h : r.binding.map Binding.ident = (s.entry e).binding.map Binding.ident) : Alike s (s.setEntry e r) where
  sup _ := rfl
  rests _ h := h
  status _ := rfl
  key _ := rfl
  withdrawn _ := rfl
  load _ := rfl
  keyIndex := rfl
  slotState _ := rfl
  slotHandle _ := rfl
  pool := rfl
  nextHandle := rfl
  bindings f := by rw [State.entry_setEntry]; split <;> simp_all
  owq := rfl
  ringQueue := rfl
  ringList := rfl
  committed := rfl
  available := rfl
  bus := rfl

/-- Writing a line record that keeps status, key, marker and load. -/
theorem Alike.setLine {s : State} {p : PortNo} {r : LineRecord} (hs : r.status = (s.line p).status)
    (hk : r.key = (s.line p).key) (hw : r.withdrawn = (s.line p).withdrawn) (hl : r.load = (s.line p).load) :
    Alike s (s.setLine p r) where
  sup _ := rfl
  rests _ h := h
  status q := by rw [State.line_setLine]; split <;> simp_all
  key q := by rw [State.line_setLine]; split <;> simp_all
  withdrawn q := by rw [State.line_setLine]; split <;> simp_all
  load q := by rw [State.line_setLine]; split <;> simp_all
  keyIndex := rfl
  slotState _ := rfl
  slotHandle _ := rfl
  pool := rfl
  nextHandle := rfl
  bindings _ := rfl
  owq := rfl
  ringQueue := rfl
  ringList := rfl
  committed := rfl
  available := rfl
  bus := rfl

/-- Writing a slot record that keeps state and handle. -/
theorem Alike.setSlot {s : State} {n : SlotNo} {r : Slot} (hs : r.state = (s.slot n).state)
    (hh : r.handle = (s.slot n).handle) : Alike s (s.setSlot n r) where
  sup _ := rfl
  rests _ h := h
  status _ := rfl
  key _ := rfl
  withdrawn _ := rfl
  load _ := rfl
  keyIndex := rfl
  slotState m := by rw [State.slot_setSlot]; split <;> simp_all
  slotHandle m := by rw [State.slot_setSlot]; split <;> simp_all
  pool := rfl
  nextHandle := rfl
  bindings _ := rfl
  owq := rfl
  ringQueue := rfl
  ringList := rfl
  committed := rfl
  available := rfl
  bus := rfl

/-- The promises on counters, parameters, capacity and band (11.4, 11.5, R121, R153). -/
def Bounded (s : State) : Prop := CountersBounded s ∧ ParamsOrdered s ∧ CapacityFollows s

/-- What `Bounded` looks at. -/
theorem Bounded.congr {s t : State} (hc : t.counters = s.counters) (hp : t.params = s.params) (hs : t.sense = s.sense)
    (ha : t.available = s.available) : Bounded s → Bounded t := by
  unfold Bounded CountersBounded ParamsOrdered CapacityFollows State.capacity State.bandNow State.temperatureTaken
    State.batteryTaken
  rw [hc, hp, hs, ha]
  exact id

/-- The way out, the cursor and other items that no promise looks at may change freely: a state with the same tables,
counters, parameters and readings. -/
structure Outward (s t : State) : Prop where
  tables : t.tables = s.tables
  counters : t.counters = s.counters
  params : t.params = s.params
  sense : t.sense = s.sense

theorem Outward.refl (s : State) : Outward s s := ⟨rfl, rfl, rfl, rfl⟩

theorem Outward.trans {s t u : State} (h : Outward s t) (k : Outward t u) : Outward s u :=
  ⟨k.tables.trans h.tables, k.counters.trans h.counters, k.params.trans h.params, k.sense.trans h.sense⟩

theorem Outward.bounded {s t : State} (h : Outward s t) : Bounded s → Bounded t :=
  Bounded.congr h.counters h.params h.sense (congrArg Tables.available h.tables)

theorem outward_send (s : State) (m : Message) : Outward s (s.send m) := by
  constructor <;> simp [State.tables]

theorem outward_sendNow (s : State) (m : Message) : Outward s (s.sendNow m) := by
  constructor <;> simp [State.tables]

theorem outward_hold (s : State) : Outward s s.hold := ⟨rfl, rfl, rfl, rfl⟩

theorem outward_release (s : State) : Outward s s.release := ⟨rfl, rfl, rfl, rfl⟩

theorem outward_reply (s : State) (m : Message) : Outward s (s.reply m) :=
  (outward_sendNow s m).trans (outward_release _)

theorem outward_ack (s : State) (tag : Nat) (c : Code) : Outward s (s.ack tag c) :=
  outward_reply s _

theorem outward_sends (s : State) (ms : List Message) : Outward s (ms.foldl State.send s) := by
  induction ms generalizing s with
  | nil => exact .refl s
  | cons m ms ih => exact (outward_send s m).trans (ih _)

theorem outward_moveCursor (s : State) (a : Address) (on : Bool) : Outward s (s.moveCursor a on) := by
  unfold State.moveCursor
  split
  · exact ⟨rfl, rfl, rfl, rfl⟩
  · exact .refl s

/-! ## The moves -/

/-- A port that is free of calls and queues: IDLE, LOCKOUT or PARKED, the last at rest (R31, R37). -/
def Port.Free (q : Port) : Prop := q.sup ∈ [SupState.idle, .lockout, .parked] ∧ q.Rests

/-- A binding that is made for this port on this slot of the pool, in the lowest empty entry (R51, R67). -/
structure Fresh (s : State) (p : PortNo) (n : SlotNo) (e : EntryNo) (b : Binding) : Prop where
  pool : n ∈ s.pool
  empty : s.emptyEntry = some e
  handle : b.handle = s.chooseHandle
  port : b.port = p
  slot : b.slot = n

/-- The slot, the entry, the counter and the port of a new binding (R51, R67, R71, R78). -/
def State.bindTo (s : State) (p : PortNo) (n : SlotNo) (e : EntryNo) (b : Binding) (q : Port) : State :=
  ({ ((s.leavePool n).setSlot n { state := .bound, handle := b.handle, blockPending := false, damaged := false }
      ).writeEntry e (some b) with nextHandle := nextOf b.handle } : State).setPort p q

/-- A normal retirement up to its service (R89, steps 1 to 7). -/
def State.retireSteps (s : State) (e : EntryNo) (b : Binding) : State :=
  let t := (((s.leaveRinging State.budgetPass b.handle).fold b).stopInjector b.port)
  (((t.returnSlot b).writeEntry e none).settle b.port).completeCease b.port b.handle

/-- The second binding stands for the same call in another phase. -/
def SameCall (b c : Binding) : Prop := c.handle = b.handle ∧ c.port = b.port ∧ c.slot = b.slot

/-- The state after a store clear: nothing is provisioned and nothing is in use (R207). -/
structure Cleared (t : State) : Prop where
  ports : ∀ p, ((t.port p).sup = .vacant ∧ (t.port p).Rests ∧ (t.line p).withdrawn = false) ∨
    ((t.port p).sup = .quarantine ∧ (t.line p).withdrawn = true)
  status : ∀ p, (t.line p).status = .vacant
  load : ∀ p, 1 ≤ (t.line p).load
  keyIndex : ∀ p, t.indexKey p = none
  slots : ∀ n, (t.slot n).state ≠ .bound
  pool : t.pool.Nodup ∧ ∀ n, n ∈ t.pool ↔ (t.slot n).state = .free
  entries : ∀ e, (t.entry e).binding = none
  nextHandle : t.nextHandle = 1
  owq : t.owq = []
  ringQueue : t.ringQueue = []
  ringList : t.ringList = []
  committed : t.committed = 0
  available : t.available = 0
  bus : t.bus = none
  bounded : Bounded t

/-- The moves of which every event is made. -/
inductive Move (s : State) : State → Prop
  /-- What no promise looks at. -/
  | aside {t : State} (h : Alike s t) (hb : Bounded s → Bounded t) : Move s t
  /-- GRANT and ANSWER (R72, R75). -/
  | connect (e : EntryNo) {b c : Binding} (h : (s.entry e).binding = some b) (hc : SameCall b c)
      (hp : b.phase ∈ [Phase.seizing, .dialling]) (hq : c.phase ∈ [Phase.dialling, .connected]) :
      Move s (s.writeEntry e (some c))
  /-- A budget pass against the capacity as it stands or as it has become (R122, R124). -/
  | pass {t : State} (a : Nat) {u : State} (hu : Alike { s with available := a } u)
      (ht : t.tables = u.budgetPass.tables) (hb : Bounded s → Bounded t) : Move s t
  /-- A port without a call, parked, unparked, locked out or freed. -/
  | place (p : PortNo) {q : Port} (hs : (s.port p).sup ∈ [SupState.idle, .lockout, .parked]) (hq : q.Free) :
      Move s (s.setPort p q)
  /-- An abandon or a wait expiry (R41, R103). -/
  | unqueue (p : PortNo) {q : Port} (h : s.waiting p = true ∨ (s.port p).sup = .waitSlot) (hq : q.Free) :
      Move s ((s.leaveQueue p).setPort p q)
  | join (p : PortNo) {q : Port} {w : Waiting} (h : (s.port p).sup = .idle) (hw : w.port = p) (hq : q.sup = .waitSlot) :
      Move s ({ s with owq := s.owq ++ [w] }.setPort p q)
  /-- An origination on an IDLE port (R71). -/
  | bindIdle {p : PortNo} {n : SlotNo} {e : EntryNo} {b : Binding} {q : Port} (h : Fresh s p n e b)
      (hs : (s.port p).sup = .idle) (hc : s.hasClearing p = false) (hb : b.phase = .seizing) (hq : q.sup = .bound) :
      Move s (s.bindTo p n e b q)
  /-- OWQ service of a waiting port (R101). -/
  | bindWaiting {p : PortNo} {n : SlotNo} {e : EntryNo} {b : Binding} {q : Port} (h : Fresh s p n e b)
      (hw : s.waiting p = true) (hc : s.hasClearing p = false) (hb : b.phase = .seizing) (hq : q.sup = .bound) :
      Move s ((s.leaveQueue p).bindTo p n e b q)
  /-- The same beside a full table, which R67 rules out (log entry 17). -/
  | bindFull {p : PortNo} {n : SlotNo} (hn : n ∈ s.pool) (he : s.emptyEntry = none) (hw : s.waiting p = true) :
      Move s (s.leaveQueue p)
  /-- An accepted OFFER up to its budget pass (R78). -/
  | offer {p : PortNo} {n : SlotNo} {e : EntryNo} {b : Binding} {q : Port} {r : QueueEntry} (h : Fresh s p n e b)
      (hs : (s.port p).sup = .idle) (hc : s.hasClearing p = false) (hb : b.phase = .ringWait) (hq : q.sup = .bound)
      (hr : r.handle = b.handle ∧ r.port = p ∧ r.load = (s.line p).load) :
      Move s { s.bindTo p n e b q with ringQueue := s.ringQueue ++ [r] }
  /-- The answer of a ringing or ring-waiting call up to its budget pass (R80, R130). -/
  | answer (e : EntryNo) {b c : Binding} (h : (s.entry e).binding = some b) (hc : SameCall b c)
      (hp : b.phase ∈ [Phase.ringWait, .ringing]) (hq : c.phase = .connected) :
      Move s (unringing (s.writeEntry e (some c)) b.handle)
  /-- Entry to CLEARING up to its budget pass (R84). -/
  | clear (e : EntryNo) {b c : Binding} {q : Port} (h : (s.entry e).binding = some b) (hc : SameCall b c)
      (hp : b.phase ≠ .clearing) (hcp : c.phase = .clearing) (hq : q.Free) :
      Move s (unringing ((s.writeEntry e (some c)).setPort b.port q) b.handle)
  /-- The same by a forced test connection (R169). -/
  | clearTest (e : EntryNo) {b c : Binding} {q : Port} {h : TestHold} (he : (s.entry e).binding = some b)
      (hc : SameCall b c) (hs : (s.port b.port).sup = .bound) (hcp : c.phase = .clearing) (hb : s.bus = none)
      (hh : h.port = b.port) (hq : q.sup = .test) :
      Move s { unringing ((s.writeEntry e (some c)).setPort b.port q) b.handle with bus := some h }
  /-- A line record found damaged without a live call outside CLEARING (R179). -/
  | lineLost (p : PortNo) (h : ∀ e b, s.call p = some (e, b) → b.phase = .clearing) :
      Move s ((s.withdraw p).quarantine p)
  /-- A line record found damaged under a live call, up to its budget pass (R84, R179). -/
  | lineCleared {p : PortNo} {e : EntryNo} {b c : Binding} (h : s.call p = some (e, b)) (hc : SameCall b c)
      (hp : b.phase ≠ .clearing) (hcp : c.phase = .clearing) :
      Move s (unringing (((s.withdraw p).writeEntry e (some c)).quarantine p) b.handle)
  /-- A line record and the entry of its call both found damaged (R179, R182). -/
  | lineFailed {p : PortNo} {e : EntryNo} {b : Binding} (h : s.call p = some (e, b)) (hp : b.phase ≠ .clearing)
      (hd : (s.entry e).damaged = true) : Move s (s.lineActions p)
  /-- An attempt on a port whose record is withdrawn (R38). -/
  | requarantine (p : PortNo) (hs : (s.port p).sup = .idle) (hw : (s.line p).withdrawn = true) :
      Move s (s.quarantine p)
  | bindingActions (outer : Nat → List Message) (e : EntryNo) : Move s (s.bindingActions outer e)
  | slotActions (n : SlotNo) : Move s (s.slotActions n)
  /-- A slot of the pool found damaged at an allocation (R51). -/
  | suspect (n : SlotNo) (h : n ∈ s.pool) : Move s (s.suspect n)
  | retireSteps {e : EntryNo} {b : Binding} (h : (s.entry e).binding = some b) : Move s (s.retireSteps e b)
  | ceaseNow (p : PortNo) (h : s.call p = none) : Move s (s.ceaseNow p)
  | ceaseWithdrawnCall (p : PortNo) (hw : (s.line p).withdrawn = true) (h : (s.call p).isSome = true) :
      Move s (s.ceaseWithdrawnCall p)
  | ceasing (p : PortNo) (hw : (s.line p).withdrawn = false) (hs : (s.line p).status ≠ .vacant) :
      Move s (s.writeLine p { s.line p with status := .ceasing })
  | writeService (p : PortNo) {st : LineStatus} (c : LineClass) {w : LineWrite} (hc : s.call p = none)
      (hq : (s.port p).sup ≠ .waitSlot) (hst : st ≠ .vacant) (hk : ∀ q, s.portOfKey w.key = some q → q = p) :
      Move s (s.writeService p st c w)
  /-- The bus is freed and its port placed (R172). -/
  | release (p : PortNo) {q : Port} (h : (s.port p).sup = .test ∨ s.bus.map (·.port) = some p)
      (hq : ((s.line p).withdrawn = true ∧ q.sup = .quarantine) ∨
        ((s.line p).withdrawn = false ∧ q.sup ∈ [SupState.vacant, .parked, .lockout, .idle]))
      (hr : q.Rests) : Move s ({ s with bus := none }.setPort p q)
  /-- A port that is not BOUND is connected to the bus (R168). -/
  | connectIdle (p : PortNo) {q : Port} {h : TestHold} (hb : s.bus = none)
      (hs : (s.port p).sup ≠ .bound ∨ s.call p = none)
      (hh : h.port = p) (hq : q.sup = .test) :
      Move s ({ s.leaveQueue p with bus := some h }.setPort p q)
  | blockFree (n : SlotNo) (h : (s.slot n).state = .free) : Move s ((s.leavePool n).blockSlot n)
  | blockSuspect (n : SlotNo) (h : (s.slot n).state = .suspect) : Move s (s.blockSlot n)
  | freeSlot (n : SlotNo) (h : (s.slot n).state = .blocked ∨ (s.slot n).state = .suspect) : Move s (s.freeSlot n)
  | linkLoss : Move s s.linkLoss
  | warmReset : Move s s.warmReset
  | cleared {t : State} (h : Cleared t) : Move s t

theorem mem_of_filter {α : Type} {f : α → Bool} {xs : List α} {a : α} (h : a ∈ xs.filter f) : a ∈ xs :=
  (List.mem_filter.mp h).1

theorem sum_le_of_sublist {xs ys : List Nat} (h : xs.Sublist ys) : xs.sum ≤ ys.sum := by
  induction h with
  | slnil => exact Nat.le_refl _
  | cons a _ ih =>
    rw [List.sum_cons]
    omega
  | cons_cons a _ ih =>
    rw [List.sum_cons, List.sum_cons]
    omega

theorem nodup_map {α β : Type} {f : α → β} {xs : List α} (apart : ∀ a b, f a = f b → a = b) (once : xs.Nodup) :
    (xs.map f).Nodup :=
  List.Pairwise.map f (fun a b ne same => ne (apart a b same)) once

theorem exists_least {P : Nat → Prop} (h : ∃ k, P k) : ∃ k, P k ∧ ∀ j < k, ¬ P j := by
  obtain ⟨k, hk⟩ := h
  induction k using Nat.strongRecOn with
  | ind k ih =>
    by_cases below : ∃ j, j < k ∧ P j
    · obtain ⟨j, hj, hp⟩ := below
      exact ih j hj hp
    · exact ⟨k, hk, fun j hj hp => below ⟨j, hj, hp⟩⟩

/-- Runs of a step relation: none, or a run and a last step. -/
inductive Steps {α : Type} (r : α → α → Prop) (a : α) : α → Prop
  | refl : Steps r a a
  | tail {b c : α} (h : Steps r a b) (k : r b c) : Steps r a c

@[refl] theorem Steps.same {α : Type} {r : α → α → Prop} (a : α) : Steps r a a := .refl

theorem Steps.single {α : Type} {r : α → α → Prop} {a b : α} (h : r a b) : Steps r a b := .tail .refl h

theorem Steps.trans {α : Type} {r : α → α → Prop} {a b c : α} (h : Steps r a b) (k : Steps r b c) : Steps r a c := by
  induction k with
  | refl => exact h
  | tail _ step ih => exact ih.tail step

/-- A run of moves. -/
abbrev Moves : State → State → Prop := Steps Move

theorem Moves.of_outward {s t : State} (h : Outward s t) : Moves s t :=
  .single (.aside (.of_tables h.tables) h.bounded)

/-- A promise that every move keeps is kept by a run of moves. -/
theorem Moves.keeps {P : State → Prop} (h : ∀ {s t}, Move s t → P s → P t) {s t : State} (m : Moves s t) (hs : P s) :
    P t := by
  induction m with
  | refl => exact hs
  | tail _ hm ih => exact h hm ih

end Sys2Proof.Machine
end

section
/-!
PROOFS. The counters stay in range (11.5), and a port in TEST stays there, whatever the operations on calls, slots,
queues and failures do.
-/
namespace Sys2Proof.Machine

open Sys2Proof.Safety

variable (s : State)

/-! ## Counters -/

/-- Every counter is in range (11.5). -/
def Counted (s : State) : Prop := CountersBounded s

theorem counted_congr {s t : State} (h : t.counters = s.counters) : Counted s → Counted t := by
  unfold Counted CountersBounded
  rw [h]
  exact id

theorem counted_out (o : Outbox) : Counted s → Counted { s with out := o } := counted_congr rfl

theorem bump_le (n : Nat) : bump n ≤ countMax := Nat.min_le_right _ _

theorem counted_countFault : Counted s → Counted s.countFault := by
  rintro ⟨h1, h2, h3, h4, h5, h6, h7, h8, h9, h10, -⟩
  exact ⟨h1, h2, h3, h4, h5, h6, h7, h8, h9, h10, bump_le _⟩

/-- The handling of a failure keeps the counters in range when its own work does. -/
theorem counted_reporting (own : List Message) (f : State → State)
    (h : ∀ t, Counted t → Counted (f t)) : Counted s → Counted (s.reporting own f) := by
  intro hs
  unfold State.reporting
  split
  · exact h _ (counted_congr (outward_sends s own).counters hs)
  · exact h _ (counted_congr (outward_sends s.hold own).counters hs)

theorem counted_leaveRinging (after : State → State) (h : Nat)
    (ha : ∀ t, Counted t → Counted (after t)) :
    Counted s → Counted (s.leaveRinging after h) := by
  intro hs
  unfold State.leaveRinging
  split
  · exact ha ((s.dropQueued h).dropRinging h) hs
  · exact hs

theorem counted_writeEntry (e : EntryNo) (b : Option Binding) : Counted s → Counted (s.writeEntry e b) :=
  counted_congr rfl

theorem counted_stopInjector (p : PortNo) : Counted s → Counted (s.stopInjector p) := counted_congr rfl

theorem counted_settle (p : PortNo) : Counted s → Counted (s.settle p) :=
  counted_congr (by simp)

theorem counted_quarantine (p : PortNo) : Counted s → Counted (s.quarantine p) :=
  counted_congr (by simp)

theorem counted_lineActionsRetiring (p : PortNo) (h : Nat) :
    Counted s → Counted (s.lineActionsRetiring p h) := fun hs =>
  counted_reporting (s.countFault.withdraw p) _ _ (fun t => counted_quarantine t p) (counted_countFault s hs)

theorem counted_completeCease (p : PortNo) (h : Nat) : Counted s → Counted (s.completeCease p h) := by
  intro hs
  by_cases hc : Ceasing s p
  · cases hd : (s.line p).damaged
    · rw [completeCease_good hc hd]
      exact counted_congr (outward_send (ceased s p _) _).counters hs
    · rw [completeCease_damaged hc hd]
      exact counted_lineActionsRetiring s p h hs
  · rwa [completeCease_none hc]

theorem counted_retireFailed (after : State → State) (e : EntryNo) (b : Binding) (h : Nat)
    (ha : ∀ t, Counted t → Counted (after t)) :
    Counted s → Counted (s.retireFailed after e b h) := fun hs =>
  counted_completeCease _ _ _ (counted_settle _ _ (counted_leaveRinging s after b.handle ha hs))

theorem counted_failEntry (after : State → State) (outer : Nat → List Message) (e : EntryNo)
    (ha : ∀ t, Counted t → Counted (after t)) :
    Counted s → Counted (s.failEntry after outer e) := by
  intro hs
  have hf := counted_countFault s hs
  unfold State.failEntry
  dsimp only
  split
  · exact counted_reporting s.countFault _ _ (fun _ => id) hf
  · next b _ =>
    split
    · exact counted_reporting s.countFault.countFault _ _ (fun t => counted_retireFailed t after e b 0 ha)
        (counted_countFault _ hf)
    · exact counted_reporting _ _ _ (fun t => counted_retireFailed t after e b _ ha)
        (counted_congr (outward_sendNow s.countFault _).counters hf)

theorem counted_shedTail (r : RingEntry) : Counted s → Counted (s.shedTail r) := by
  intro hs
  unfold State.shedTail
  split
  · exact hs
  · split
    · exact counted_failEntry s _ _ _ (fun _ => id) hs
    · obtain ⟨h1, h2, h3, h4, h5, -, h7, h8, h9, h10, h11⟩ := hs
      exact ⟨h1, h2, h3, h4, h5, bump_le _, h7, h8, h9, h10, h11⟩

theorem counted_shedStep (fuel : Nat) : Counted s → Counted (s.shedStep fuel) := by
  intro hs
  induction fuel generalizing s with
  | zero => exact hs
  | succ fuel ih =>
    unfold State.shedStep
    split
    · split
      · exact ih _ (counted_shedTail s _ hs)
      · exact hs
    · exact hs

theorem counted_startHead (q : QueueEntry) : Counted s → Counted (s.startHead q) := by
  intro hs
  unfold State.startHead
  split
  · exact hs
  · split
    · exact counted_failEntry s _ _ _ (fun _ => id) hs
    · exact hs

theorem counted_admitStep (fuel : Nat) : Counted s → Counted (s.admitStep fuel) := by
  intro hs
  induction fuel generalizing s with
  | zero => exact hs
  | succ fuel ih =>
    unfold State.admitStep
    split
    · split
      · exact ih _ (counted_startHead s _ hs)
      · exact hs
    · exact hs

theorem counted_budgetPass : Counted s → Counted s.budgetPass := fun hs =>
  counted_admitStep _ _ (counted_shedStep s _ hs)

theorem counted_bindingActions (outer : Nat → List Message) (e : EntryNo) :
    Counted s → Counted (s.bindingActions outer e) :=
  counted_failEntry s _ outer e counted_budgetPass

theorem counted_clearingEffects (e : EntryNo) (b : Binding) (move : State → State)
    (hm : ∀ t, Counted t → Counted (move t)) :
    Counted s → Counted (s.clearingEffects e b move) := fun hs =>
  counted_leaveRinging _ _ _ counted_budgetPass (hm _ hs)

theorem counted_lineActions (p : PortNo) : Counted s → Counted (s.lineActions p) := by
  intro hs
  have hw : Counted (s.countFault.withdraw p) := counted_countFault s hs
  unfold State.lineActions
  dsimp only
  split
  · next e b _ =>
    split
    · exact counted_reporting _ _ _ (fun t => counted_quarantine t p) hw
    split
    · exact counted_quarantine _ p (counted_bindingActions _ _ e hw)
    · exact counted_reporting _ _ _
        (fun t => counted_clearingEffects t e b _ fun u => counted_quarantine u p)
        (counted_congr (outward_sendNow _ _).counters hw)
  · exact counted_reporting _ _ _ (fun t => counted_quarantine t p) hw

theorem counted_slotActions (n : SlotNo) : Counted s → Counted (s.slotActions n) := by
  intro hs
  have hw : Counted (s.countFault.suspect n) := counted_countFault s hs
  unfold State.slotActions
  dsimp only
  split
  · exact counted_reporting _ _ _ (fun _ => id) hw
  · split
    · exact counted_reporting _ _ _ (fun t => counted_retireFailed t _ _ _ _ counted_budgetPass)
        (counted_countFault _ hw)
    · exact counted_reporting _ _ _ (fun t => counted_retireFailed t _ _ _ _ counted_budgetPass)
        (counted_congr (outward_sendNow _ _).counters hw)

theorem counted_suspectAtUse (n : SlotNo) (h : Nat) : Counted s → Counted (s.suspectAtUse n h) :=
  fun hs => counted_reporting (s.countFault.suspect n) _ _ (fun _ => id) (counted_countFault s hs)

theorem counted_fold (b : Binding) : Counted s → Counted (s.fold b) := by
  intro hs
  unfold State.fold
  dsimp only
  split
  · exact hs
  split
  · exact counted_lineActionsRetiring s _ _ hs
  · exact hs

theorem counted_returnSlot (b : Binding) : Counted s → Counted (s.returnSlot b) := by
  intro hs
  unfold State.returnSlot
  split
  · exact counted_suspectAtUse s _ _ hs
  · exact counted_congr (by simp) hs

theorem counted_retireSteps (e : EntryNo) (b : Binding) : Counted s → Counted (s.retireSteps e b) :=
by
  intro hs
  unfold State.retireSteps
  dsimp only
  refine counted_completeCease _ _ _ (counted_settle _ _ (counted_writeEntry _ _ _ (counted_returnSlot _ _ ?_)))
  exact counted_stopInjector _ _ (counted_fold _ b (counted_leaveRinging s _ b.handle counted_budgetPass hs))

theorem counted_foldl {α : Type} (f : State → α → State) (h : ∀ t a, Counted t → Counted (f t a))
    (xs : List α) : Counted s → Counted (xs.foldl f s) := by
  induction xs generalizing s with
  | nil => exact id
  | cons x xs ih => exact fun hs => ih _ (h s x hs)

theorem counted_retireQuiet (settle : Bool) (e : EntryNo) :
    Counted s → Counted (s.retireQuiet settle e) := by
  intro hs
  unfold State.retireQuiet
  split
  · exact hs
  · next b _ =>
    refine counted_completeCease _ _ _ ?_
    have folded := counted_writeEntry _ e none (counted_stopInjector _ b.port (counted_fold s b hs))
    split
    · exact counted_settle _ _ folded
    · exact folded

theorem counted_returnQuiet (n : SlotNo) : Counted s → Counted (s.returnQuiet n) := by
  intro hs
  unfold State.returnQuiet
  split
  · split
    · exact counted_countFault s hs
    · exact counted_congr (by simp) hs
  · exact hs

theorem counted_retireAll (settle : Bool) : Counted s → Counted (s.retireAll settle) := by
  intro hs
  unfold State.retireAll
  dsimp only
  refine counted_foldl _ _ counted_returnQuiet _ (counted_foldl _ _ (fun t e => counted_retireQuiet t settle e) _ ?_)
  exact counted_congr rfl hs

/-- The record of a port that is about to be placed by it is read, damage and all (R172). -/
def State.readToPlace (s : State) (p : PortNo) : State := if s.placementFault p then s.lineActions p else s

/-- The supervision state of a port that leaves the bus (R172, log entry 12). -/
def State.placeOf (s : State) (p : PortNo) : SupState :=
  if (s.line p).withdrawn then .quarantine else s.returnState p

/-- A release: the record is read, the bus is freed and the port is placed. -/
theorem disconnect_eq (p : PortNo) :
    s.disconnect p =
      { s.readToPlace p with bus := none }.setPort p
        ({ (s.readToPlace p).port p with parkPending := false }.place ((s.readToPlace p).placeOf p)) := by
  have placed (t : State) (st : SupState) : (t.mark p false).place p st =
      t.setPort p ({ t.port p with parkPending := false }.place st) := by
    simp [State.mark, State.place, State.setPort, State.port]
  have row (t : State) : (({ t with bus := none } : State).mark p false).returnState p = t.returnState p := by
    simp only [State.returnState, State.parkable, State.mark, State.port_setPort, if_true]
    rfl
  change (if ((s.readToPlace p).line p).withdrawn = true then
      (({ s.readToPlace p with bus := none } : State).mark p false).place p .quarantine
    else (({ s.readToPlace p with bus := none } : State).mark p false).place p
      ((({ s.readToPlace p with bus := none } : State).mark p false).returnState p)) = _
  rw [placed, placed, row, State.placeOf]
  split <;> rfl

theorem counted_readToPlace (p : PortNo) : Counted s → Counted (s.readToPlace p) := by
  intro hs
  unfold State.readToPlace
  split
  · exact counted_lineActions s p hs
  · exact hs

theorem counted_disconnect (p : PortNo) : Counted s → Counted (s.disconnect p) := by
  intro hs
  rw [disconnect_eq]
  exact counted_congr (s := s.readToPlace p) rfl (counted_readToPlace s p hs)

theorem counted_emptyQueue : Counted s → Counted s.emptyQueue := fun hs =>
  counted_congr (s := s.owq.foldl (fun t w => t.place w.port .lockout) s) rfl
    (counted_foldl s _ (fun t w => counted_congr (by simp)) s.owq hs)

theorem counted_freeBus : Counted s → Counted s.freeBus := by
  intro hs
  unfold State.freeBus
  split
  · exact counted_disconnect s _ hs
  · exact hs

theorem counted_markWalk : Counted s → Counted s.markWalk := by
  intro hs
  unfold State.markWalk
  split <;> exact hs

/-- Link loss but for its messages (R194): the calls, the queue and the bus. -/
def State.loseCalls (s : State) : State := (s.retireAll true).emptyQueue.freeBus

theorem linkLoss_eq :
    s.linkLoss = { ({ s with link := .down, lossHold := none, assembly := [] } : State).loseCalls.markWalk with
      out := s.out } := by
  simp only [State.linkLoss, State.silently, State.loseCalls]

theorem counted_linkLoss : Counted s → Counted s.linkLoss := by
  intro hs
  rw [linkLoss_eq]
  have down : Counted { s with link := .down, lossHold := none, assembly := [] } := counted_congr (s := s) rfl hs
  exact counted_out _ _ (counted_markWalk _ (counted_freeBus _ (counted_emptyQueue _ (counted_retireAll _ true down))))

/-! ## The port in TEST -/

variable {s} {p : PortNo}

/-- What is found in TEST stays there (R26, R45, R179). -/
abbrev InTest (s : State) (p : PortNo) : Prop := (s.port p).sup = .test

theorem inTest_congr {t : State} (h : t.ports = s.ports) : InTest s p → InTest t p := by
  unfold InTest
  rw [State.port_congr h]
  exact id

theorem inTest_setPort {r : PortNo} {q : Port} (hq : (s.port r).sup = .test → q.sup = .test) :
    InTest s p → InTest (s.setPort r q) p := by
  intro h
  unfold InTest
  rw [State.port_setPort]
  split
  · next hr => exact hq (hr ▸ h)
  · exact h

theorem inTest_reporting (own : List Message) {f : State → State} (hf : ∀ t, InTest t p → InTest (f t) p) :
    InTest s p → InTest (s.reporting own f) p := by
  intro h
  unfold State.reporting
  split
  · exact hf _ (inTest_congr (congrArg Tables.ports (outward_sends s own).tables) h)
  · exact hf _ (inTest_congr (congrArg Tables.ports (outward_sends s.hold own).tables) h)

theorem inTest_settle (r : PortNo) : InTest s p → InTest (s.settle r) p := by
  rw [State.settle_eq]
  exact inTest_setPort fun h => by simp [settled, h]

theorem inTest_quarantine (r : PortNo) : InTest s p → InTest (s.quarantine r) p := by
  rw [State.quarantine_eq]
  exact inTest_setPort fun h => by simp [quarantined, h]

theorem inTest_lineActionsRetiring (r : PortNo) (h : Nat) : InTest s p → InTest (s.lineActionsRetiring r h) p :=
  inTest_reporting (s := s.countFault.withdraw r) _ fun _ => inTest_quarantine r

theorem inTest_completeCease (r : PortNo) (h : Nat) : InTest s p → InTest (s.completeCease r h) p := by
  intro ht
  by_cases hc : Ceasing s r
  · cases hd : (s.line r).damaged
    · rw [completeCease_good hc hd]
      refine inTest_congr (congrArg Tables.ports (outward_send (ceased s r _) _).tables) ?_
      exact inTest_setPort (s := s) (fun h => by simp [vacated, h]) ht
    · rw [completeCease_damaged hc hd]
      exact inTest_lineActionsRetiring r h ht
  · rwa [completeCease_none hc]

theorem inTest_leaveRinging {after : State → State} (h : Nat) (ha : ∀ t, InTest t p → InTest (after t) p) :
    InTest s p → InTest (s.leaveRinging after h) p := by
  intro ht
  unfold State.leaveRinging
  split
  · exact ha ((s.dropQueued h).dropRinging h) ht
  · exact ht

theorem inTest_stopInjector (r : PortNo) : InTest s p → InTest (s.stopInjector r) p :=
  inTest_setPort fun h => h

theorem inTest_retireFailed {after : State → State} (e : EntryNo) (b : Binding) (h : Nat)
    (ha : ∀ t, InTest t p → InTest (after t) p) : InTest s p → InTest (s.retireFailed after e b h) p := fun ht =>
  inTest_completeCease _ _ (inTest_settle _ (inTest_stopInjector b.port (inTest_leaveRinging b.handle ha ht)))

theorem inTest_failEntry {after : State → State} (outer : Nat → List Message) (e : EntryNo)
    (ha : ∀ t, InTest t p → InTest (after t) p) : InTest s p → InTest (s.failEntry after outer e) p := by
  intro ht
  unfold State.failEntry
  dsimp only
  split
  · exact inTest_reporting (s := s.countFault) _ (fun _ => id) ht
  · next b _ =>
    split
    · exact inTest_reporting (s := s.countFault.countFault) _ (fun _ => inTest_retireFailed e b 0 ha) ht
    · exact inTest_reporting _ (fun _ => inTest_retireFailed e b _ ha)
        (inTest_congr (congrArg Tables.ports (outward_sendNow s.countFault _).tables) ht)

theorem inTest_shedStep (fuel : Nat) : InTest s p → InTest (s.shedStep fuel) p := by
  intro ht
  induction fuel generalizing s with
  | zero => exact ht
  | succ fuel ih =>
    unfold State.shedStep
    split
    · split
      · next r _ =>
        refine ih ?_
        unfold State.shedTail
        split
        · exact ht
        · split
          · exact inTest_failEntry _ _ (fun _ => id) ht
          · exact ht
      · exact ht
    · exact ht

theorem inTest_admitStep (fuel : Nat) : InTest s p → InTest (s.admitStep fuel) p := by
  intro ht
  induction fuel generalizing s with
  | zero => exact ht
  | succ fuel ih =>
    unfold State.admitStep
    split
    · next q _ _ =>
      split
      · refine ih ?_
        unfold State.startHead
        split
        · exact ht
        · split
          · exact inTest_failEntry _ _ (fun _ => id) ht
          · exact ht
      · exact ht
    · exact ht

theorem inTest_budgetPass : InTest s p → InTest s.budgetPass p := fun ht =>
  inTest_admitStep _ (inTest_shedStep _ ht)

theorem inTest_lineActions (r : PortNo) : InTest s p → InTest (s.lineActions r) p := by
  intro ht
  have hw : InTest (s.countFault.withdraw r) p := ht
  unfold State.lineActions
  dsimp only
  split
  · next e b _ =>
    split
    · exact inTest_reporting _ (fun _ => inTest_quarantine r) hw
    split
    · exact inTest_quarantine r (inTest_failEntry _ e (fun _ => inTest_budgetPass) hw)
    · refine inTest_reporting _ (fun t h => ?_) (inTest_congr (congrArg Tables.ports (outward_sendNow _ _).tables) hw)
      exact inTest_leaveRinging _ (fun _ => inTest_budgetPass)
        (inTest_quarantine r (inTest_stopInjector b.port h))
  · exact inTest_reporting _ (fun _ => inTest_quarantine r) hw

end Sys2Proof.Machine
end

section
/-!
PROOFS. The shared operations on calls, slots, queues and failures as runs of moves.
-/
namespace Sys2Proof.Machine

open Sys2Proof.Safety

variable {s : State}

/-! ## Writing a table after messages have left -/

theorem Outward.setPort {t : State} (h : Outward s t) (p : PortNo) (q : Port) :
    Outward (s.setPort p q) (t.setPort p q) := by
  have tables (u : State) : (u.setPort p q).tables = { u.tables with ports := u.tables.ports.set p q } := rfl
  exact ⟨by rw [tables, tables, h.tables], h.counters, h.params, h.sense⟩

theorem Outward.port {t : State} (h : Outward s t) (p : PortNo) : t.port p = s.port p :=
  State.port_congr (congrArg Tables.ports h.tables) p

theorem Outward.line {t : State} (h : Outward s t) (p : PortNo) : t.line p = s.line p :=
  State.line_congr (congrArg Tables.lines h.tables) p

theorem Outward.entry {t : State} (h : Outward s t) (e : EntryNo) : t.entry e = s.entry e :=
  State.entry_congr (congrArg Tables.entries h.tables) e

theorem Outward.call {t : State} (h : Outward s t) (p : PortNo) : t.call p = s.call p :=
  State.call_congr (congrArg Tables.entries h.tables) p

theorem Outward.slot {t : State} (h : Outward s t) (n : SlotNo) : t.slot n = s.slot n :=
  State.slot_congr (congrArg Tables.slots h.tables) n

theorem Outward.quarantine {t : State} (h : Outward s t) (p : PortNo) :
    Outward (s.quarantine p) (t.quarantine p) := by
  rw [State.quarantine_eq, State.quarantine_eq, h.port]
  exact h.setPort p _

theorem Outward.writeEntry {t : State} (h : Outward s t) (e : EntryNo) (b : Option Binding) :
    Outward (s.writeEntry e b) (t.writeEntry e b) := by
  have tables (u : State) : (u.writeEntry e b).tables =
      { u.tables with entries := u.tables.entries.set e { binding := b, damaged := false } } := rfl
  exact ⟨by rw [tables, tables, h.tables], h.counters, h.params, h.sense⟩

theorem Outward.unringing {t : State} (h : Outward s t) (k : Nat) :
    Outward (unringing s k) (unringing t k) := by
  have tables (u : State) : (Safety.unringing u k).tables =
      { u.tables with
        ringQueue := u.tables.ringQueue.filter fun q => !decide (q.handle = k)
        ringList := u.tables.ringList.filter fun r => !decide (r.handle = k)
        committed := u.tables.committed -
          ((u.tables.ringList.filter fun r => decide (r.handle = k)).map (·.load)).sum } := rfl
  exact ⟨by rw [tables, tables, h.tables], h.counters, h.params, h.sense⟩

theorem Moves.outward {t u : State} (m : Moves s t) (h : Outward t u) : Moves s u := m.trans (Moves.of_outward h)

/-- What the promises on counters and readings ask after an operation that writes neither parameters nor readings. -/
theorem Bounded.of_still {t : State} (h : t.still = s.still) (hc : Counted s → Counted t) : Bounded s → Bounded t := by
  rintro ⟨counted, rest⟩
  have moved : Bounded { s with counters := t.counters } := ⟨hc counted, rest⟩
  exact Bounded.congr (s := { s with counters := t.counters }) rfl (congrArg Still.params h) (congrArg Still.sense h) (congrArg Still.available h) moved

theorem moves_countFault (s : State) : Moves s s.countFault :=
  .single (.aside (.of_tables rfl) (.of_still rfl (counted_countFault s)))

/-- A property that the handling of a failure reaches, whatever has been sent before it, and that letting go of the held
messages keeps. -/
theorem reporting_ends {P : State → Prop} (own : List Message) {f : State → State}
    (hf : ∀ u, Outward s u → P (f u)) (hr : ∀ t, P t → P t.release) : P (s.reporting own f) := by
  unfold State.reporting
  split
  · exact hf _ (outward_sends s own)
  · exact hr _ (hf _ ((outward_hold s).trans (outward_sends s.hold own)))

theorem moves_reporting {t : State} (own : List Message) {f : State → State}
    (hf : ∀ u, Outward s u → Moves t (f u)) : Moves t (s.reporting own f) :=
  reporting_ends own hf fun u hu => hu.outward (outward_release u)

/-! ## Budget pass, CLEARING -/

theorem moves_budgetPass (s : State) : Moves s s.budgetPass :=
  .single (.pass s.available (u := s) (.refl s) rfl (.of_still (still_budgetPass s) (counted_budgetPass s)))

/-- A handle in neither list leaves nothing behind when it is taken out. -/
theorem unringing_none {h : Nat} (hn : NotRinging s h) : unringing s h = s := by
  obtain ⟨hr, hq⟩ := hn
  have queue : (s.ringQueue.filter fun q => !decide (q.handle = h)) = s.ringQueue :=
    List.filter_eq_self.mpr fun q hm => by simpa using hq q hm
  have list : (s.ringList.filter fun r => !decide (r.handle = h)) = s.ringList :=
    List.filter_eq_self.mpr fun r hm => by simpa using hr r hm
  have none : (s.ringList.filter fun r => decide (r.handle = h)) = [] :=
    List.filter_eq_nil_iff.mpr fun r hm => by simpa using hr r hm
  simp [unringing, queue, list, none]

theorem moves_leaveRinging (s : State) (h : Nat) : Moves (unringing s h) (s.leaveRinging State.budgetPass h) := by
  by_cases hn : NotRinging s h
  · rw [leaveRinging_none _ hn, unringing_none hn]
  · rw [leaveRinging_some _ hn]
    exact moves_budgetPass _

theorem place_rests (q : Port) (st : SupState) : (q.place st).Rests := by
  intro h
  unfold Port.place at *
  split at h
  · next hf => split at h <;> simp_all
  · next hf => simp [hf]

theorem place_sup (q : Port) (st : SupState) : (q.place st).sup = st := by
  unfold Port.place
  split
  · split <;> rfl
  · rfl

theorem place_free (q : Port) {st : SupState} (h : st ∈ [SupState.idle, .lockout, .parked]) : (q.place st).Free :=
  ⟨by rwa [place_sup], place_rests q st⟩

theorem toIdle_free (q : Port) : q.toIdle.Free := by
  unfold Port.toIdle
  split
  · exact place_free _ (by simp)
  · exact place_free _ (by simp)

/-- Entry to CLEARING by a move that leaves the port without a call (R84). -/
theorem moves_clearingEffects {e : EntryNo} {b : Binding} (h : (s.entry e).binding = some b)
    (hp : b.phase ≠ .clearing) {move : State → State} (hm : ∀ t, ∃ q : Port, q.Free ∧ move t = t.setPort b.port q) :
    Moves s (s.clearingEffects e b move) := by
  obtain ⟨q, hq, hmove⟩ :=
    hm ((s.writeEntry e (some (b.intoClearing (s.params.tRelease * secondMs)))).stopInjector b.port)
  unfold State.clearingEffects
  dsimp only
  rw [hmove]
  refine .trans (.single (.clear e h (c := b.intoClearing (s.params.tRelease * secondMs)) ⟨rfl, rfl, rfl⟩ hp rfl hq)) ?_
  simpa [State.stopInjector, State.setPort] using
    moves_leaveRinging ((s.writeEntry e (some (b.intoClearing (s.params.tRelease * secondMs)))).setPort b.port q) b.handle

theorem moves_enterClearing {e : EntryNo} {b : Binding} (h : (s.entry e).binding = some b) (hp : b.phase ≠ .clearing)
    (c : Cause) {move : State → State} (hm : ∀ t, ∃ q : Port, q.Free ∧ move t = t.setPort b.port q) :
    Moves s (s.enterClearing e b c move) :=
  .trans (Moves.of_outward (outward_sendNow s _))
    (moves_clearingEffects (by rwa [(outward_sendNow s _).entry]) hp hm)

/-! ## Failures -/

theorem moves_bindingActions (s : State) (outer : Nat → List Message) (e : EntryNo) :
    Moves s (s.bindingActions outer e) := .single (.bindingActions outer e)

theorem moves_lineActions (s : State) (p : PortNo) : Moves s (s.lineActions p) := by
  have counted := moves_countFault s
  by_cases hc : ∀ e b, s.call p = some (e, b) → b.phase = .clearing
  · have lost : Moves s ((s.countFault.withdraw p).quarantine p) := counted.trans (.single (.lineLost p hc))
    have handled (own : List Message) : Moves s ((s.countFault.withdraw p).reporting own fun u => u.quarantine p) :=
      moves_reporting own fun u hu => lost.outward (hu.quarantine p)
    unfold State.lineActions
    dsimp only
    split
    · next e b h => rw [if_pos (hc e b h)]; exact handled _
    · exact handled _
  simp only [Classical.not_forall] at hc
  obtain ⟨e, b, hcall, hp⟩ := hc
  cases hd : (s.entry e).damaged
  · let c : Binding := b.intoClearing (s.params.tRelease * secondMs)
    have hcall' : (s.countFault.withdraw p).call p = some (e, b) := hcall
    have hd' : ((s.countFault.withdraw p).entry e).damaged = false := hd
    obtain rfl := call_port hcall
    unfold State.lineActions
    dsimp only
    rw [hcall']
    dsimp only
    rw [if_neg hp, if_neg (by simp [hd'])]
    refine moves_reporting _ fun u hu => ?_
    have out : Outward (s.countFault.withdraw b.port) u := (outward_sendNow _ _).trans hu
    have cleared : Moves s (unringing (((s.countFault.withdraw b.port).writeEntry e (some c)).quarantine b.port) b.handle) :=
      counted.trans (.single (.lineCleared (s := s.countFault) hcall ⟨rfl, rfl, rfl⟩ hp rfl))
    have same : b.intoClearing (u.params.tRelease * secondMs) = c := by rw [out.params]; rfl
    have placed := ((out.writeEntry e (some c)).quarantine b.port).unringing b.handle
    have stopped : Alike (unringing ((u.writeEntry e (some c)).quarantine b.port) b.handle)
        (unringing (((u.writeEntry e (some c)).stopInjector b.port).quarantine b.port) b.handle) := by
      have ports : ((u.writeEntry e (some c)).stopInjector b.port).quarantine b.port =
          ((u.writeEntry e (some c)).quarantine b.port).setPort b.port
            (quarantined { (u.writeEntry e (some c)).port b.port with injector := .idle }) := by
        simp [State.quarantine_eq, State.stopInjector, State.setPort, State.port]
      rw [ports]
      refine .setPort (s := unringing ((u.writeEntry e (some c)).quarantine b.port) b.handle) ?_ ?_
      · show _ = (((u.writeEntry e (some c)).quarantine b.port).port b.port).sup
        simp only [State.quarantine_eq, State.port_setPort, if_true, quarantined]
        split
        · rfl
        · split <;> rfl
      · intro _ hf
        unfold quarantined at hf ⊢
        split at hf
        · next ht => rw [ht] at hf; cases hf
        · split at hf <;> cases hf
    refine (cleared.outward placed).trans (.trans (.single (.aside stopped (Bounded.congr ?_ ?_ ?_ ?_))) ?_)
    · simp [unringing]
    · simp [unringing]
    · simp [unringing]
    · simp [unringing]
    · unfold State.clearingEffects
      dsimp only
      rw [same]
      exact moves_leaveRinging _ _
  · exact .single (.lineFailed hcall hp hd)

theorem moves_suspectAtUse {n : SlotNo} (h : n ∈ s.pool) (k : Nat) : Moves s (s.suspectAtUse n k) :=
  moves_reporting (s := s.countFault.suspect n) _ fun _ hu =>
    Moves.outward ((moves_countFault s).tail (.suspect (s := s.countFault) n h)) hu

/-! ## Allocation and service -/

theorem suspectAtUse_entries (s : State) (n : SlotNo) (k : Nat) : (s.suspectAtUse n k).entries = s.entries :=
  reporting_ends (s := s.countFault.suspect n) (P := fun t => t.entries = s.entries) _
    (fun _ hu => congrArg Tables.entries hu.tables) fun _ h => h

theorem allocate_entries (s : State) (c : LineClass) (fuel : Nat) : (s.allocate c fuel).1.entries = s.entries := by
  induction fuel generalizing s with
  | zero => rfl
  | succ fuel ih =>
    unfold State.allocate
    split
    · split
      · split
        · rw [ih, suspectAtUse_entries]
        · rfl
      · rfl
    · rfl

/-- An allocation puts damaged slots out of use; the slot it finds stands in the pool (R51). -/
theorem moves_allocate (s : State) (c : LineClass) (fuel : Nat) :
    Moves s (s.allocate c fuel).1 ∧ ∀ n, (s.allocate c fuel).2 = some n → n ∈ (s.allocate c fuel).1.pool := by
  induction fuel generalizing s with
  | zero => exact ⟨.refl, fun _ h => nomatch h⟩
  | succ fuel ih =>
    unfold State.allocate
    split
    · split
      · next n rest hpool =>
        have mem : n ∈ s.pool := by rw [hpool]; exact List.mem_cons_self
        split
        · obtain ⟨moves, found⟩ := ih (s.suspectAtUse n 0)
          exact ⟨(moves_suspectAtUse mem 0).trans moves, found⟩
        · exact ⟨.refl, fun m h => by cases h; exact mem⟩
      · exact ⟨.refl, fun _ h => nomatch h⟩
    · exact ⟨.refl, fun _ h => nomatch h⟩

/-- A binding made on a slot of the pool, as a search for an empty entry finds it. -/
theorem create_eq (s : State) (n : SlotNo) (make : Nat → Binding) (p : PortNo) (andThen : Binding → State → State)
    {e : EntryNo} (he : s.emptyEntry = some e) :
    s.create n make p andThen = andThen (make s.chooseHandle)
      (s.bindTo p n e (make s.chooseHandle) ((s.port p).place .bound)) := by
  unfold State.create
  rw [he]
  rfl

theorem create_full (s : State) (n : SlotNo) (make : Nat → Binding) (p : PortNo) (andThen : Binding → State → State)
    (he : s.emptyEntry = none) : s.create n make p andThen = s := by
  unfold State.create
  rw [he]

theorem originating_fresh {t : State} {p : PortNo} {n : SlotNo} {e : EntryNo} (hn : n ∈ s.pool)
    (he : s.emptyEntry = some e) : Fresh s p n e (t.originating p n s.chooseHandle) := ⟨hn, he, rfl, rfl, rfl⟩

/-- An origination on an IDLE port (R71). -/
theorem moves_seize_idle {p : PortNo} {n : SlotNo} (hn : n ∈ s.pool) (hs : (s.port p).sup = .idle)
    (hc : s.hasClearing p = false) : Moves s (s.seize p n) := by
  unfold State.seize
  cases he : s.emptyEntry with
  | none => rw [create_full _ _ _ _ _ he]
  | some e =>
    rw [create_eq _ _ _ _ _ he]
    exact .outward (.single (.bindIdle (originating_fresh hn he) hs hc rfl (place_sup _ _))) (outward_send _ _)

/-- OWQ service of a waiting port (R101). -/
theorem moves_seize_waiting {p : PortNo} {n : SlotNo} (hn : n ∈ s.pool) (hw : s.waiting p = true)
    (hc : s.hasClearing p = false) : Moves s ((s.leaveQueue p).seize p n) := by
  unfold State.seize
  have same : (s.leaveQueue p).emptyEntry = s.emptyEntry := rfl
  cases he : s.emptyEntry with
  | none =>
    rw [create_full _ _ _ _ _ (same.trans he)]
    exact .single (.bindFull hn he hw)
  | some e =>
    rw [create_eq _ _ _ _ _ (same.trans he)]
    exact .outward (.single (.bindWaiting (originating_fresh hn he) hw hc rfl (place_sup _ _))) (outward_send _ _)

theorem hasClearing_congr {s t : State} (h : t.entries = s.entries) (p : PortNo) : t.hasClearing p = s.hasClearing p := by
  unfold State.hasClearing
  rw [State.call_congr h]

theorem waiting_congr {s t : State} (h : t.owq = s.owq) (p : PortNo) : t.waiting p = s.waiting p := by
  unfold State.waiting
  rw [h]

theorem moves_serviceScan (s : State) (fuel : Nat) (ps : List PortNo) : Moves s (s.serviceScan fuel ps) := by
  induction fuel generalizing s ps with
  | zero => exact .refl
  | succ fuel ih =>
    cases ps with
    | nil => exact .refl
    | cons p rest =>
      unfold State.serviceScan
      split
      · exact .refl
      split
      · exact ih s rest
      next hw =>
      split
      · exact ih s rest
      split
      · exact ih s rest
      next hc =>
      split
      · exact ih s rest
      split
      · exact (moves_lineActions s p).trans (ih _ rest)
      have allocated := moves_allocate s (s.line p).cls (s.pool.length + 1)
      have entries := allocate_entries s (s.line p).cls (s.pool.length + 1)
      have owq := owq_admitSlot s (s.line p).cls
      obtain ⟨moves, found⟩ := allocated
      split
      · next t h => rw [State.admitSlot] at h; rw [h] at moves; exact moves.trans (ih t rest)
      · next t n h =>
        rw [h] at owq
        rw [State.admitSlot] at h
        rw [h] at moves found entries
        have waits : t.waiting p = true := by rw [waiting_congr owq]; simpa using hw
        have clear : t.hasClearing p = false := by rw [hasClearing_congr entries]; simpa using hc
        exact (moves.trans (moves_seize_waiting (found n rfl) waits clear)).trans (ih _ _)

theorem moves_service (s : State) : Moves s s.service := moves_serviceScan s _ _

theorem moves_serviceIf (s : State) (b : Bool) : Moves s (s.serviceIf b) := by
  unfold State.serviceIf
  split
  · exact moves_service s
  · exact .refl

theorem moves_bindingFailure (s : State) (e : EntryNo) : Moves s (s.bindingFailure e) :=
  (moves_bindingActions s _ e).trans (moves_serviceIf _ _)

theorem moves_slotFailure (s : State) (n : SlotNo) : Moves s (s.slotFailure n) :=
  .trans (.single (.slotActions n)) (moves_serviceIf _ _)

theorem moves_retire {e : EntryNo} {b : Binding} (h : (s.entry e).binding = some b) : Moves s (s.retire e b) :=
  .trans (.single (.retireSteps h)) (moves_serviceIf _ _)

/-! ## Power, test bus, ceasing -/

theorem moves_setPort (s : State) (p : PortNo) {q : Port} (hs : q.sup = (s.port p).sup)
    (hr : (s.port p).Rests → q.Rests) : Moves s (s.setPort p q) :=
  .single (.aside (.setPort hs hr) (.congr rfl rfl rfl rfl))

theorem moves_mark (s : State) (p : PortNo) (b : Bool) : Moves s (s.mark p b) :=
  moves_setPort s p rfl fun h => h

theorem moves_place (s : State) (p : PortNo) {st : SupState} (h : (s.port p).sup ∈ [SupState.idle, .lockout, .parked])
    (hst : st ∈ [SupState.idle, .lockout, .parked]) : Moves s (s.place p st) :=
  .single (.place p h (place_free _ hst))

theorem moves_parkPort (s : State) (p : PortNo) : Moves s (s.parkPort p) := by
  unfold State.parkPort
  split
  · exact .refl
  split
  · exact moves_lineActions s p
  split
  · split
    · next h => exact moves_place s p (by simp [h]) (by simp)
    · exact moves_mark s p true
    · exact moves_mark s p true
    · exact moves_mark s p true
    · exact moves_mark s p true
    · exact .refl
  · exact .refl

theorem moves_unparkPort (s : State) (p : PortNo) : Moves s (s.unparkPort p) := by
  unfold State.unparkPort
  dsimp only
  refine .trans ?_ (moves_mark _ p false)
  split
  · next h => exact moves_place s p (by simp [h]) (by simp)
  · exact .refl

theorem moves_foldl {α : Type} (f : State → α → State) (h : ∀ t a, Moves t (f t a)) (xs : List α) (s : State) :
    Moves s (xs.foldl f s) := by
  induction xs generalizing s with
  | nil => exact .refl
  | cons x xs ih => exact (h s x).trans (ih _)

theorem moves_enterPower (s : State) (after : PowerState) : Moves s (s.enterPower after) := by
  have changed : Moves s { s with sense := { s.sense with power := after } } :=
    .single (.aside (.of_tables rfl) id)
  unfold State.enterPower
  dsimp only
  split
  · exact changed.trans (moves_foldl _ moves_parkPort _ _)
  split
  · exact changed.trans (moves_foldl _ moves_unparkPort _ _)
  · exact changed

theorem outward_reportPower (s : State) (before : Sense) : Outward s (s.reportPower before) := by
  unfold State.reportPower
  split
  · exact .refl s
  · exact outward_send s _

/-- The bus is freed from a port in TEST, or from the port it holds (R172). -/
theorem moves_disconnect (s : State) (p : PortNo) (h : (s.port p).sup = .test ∨ s.bus.map (·.port) = some p) :
    Moves s (s.disconnect p) := by
  have read : Moves s (s.readToPlace p) ∧
      (((s.readToPlace p).port p).sup = .test ∨ (s.readToPlace p).bus.map (·.port) = some p) := by
    unfold State.readToPlace
    split
    · exact ⟨moves_lineActions s p, h.imp (inTest_lineActions p) fun hb => by
        rw [show (s.lineActions p).bus = s.bus from congrArg Still.bus (still_lineActions s p)]; exact hb⟩
    · exact ⟨.refl, h⟩
  obtain ⟨moves, held⟩ := read
  rw [disconnect_eq]
  refine moves.trans (.single (.release p held ?_ (place_rests _ _)))
  rw [place_sup]
  unfold State.placeOf State.returnState
  cases ((s.readToPlace p).line p).withdrawn
  · refine .inr ⟨rfl, ?_⟩
    simp only [Bool.false_eq_true, if_false]
    split
    · simp
    split
    · simp
    split <;> simp
  · exact .inl ⟨rfl, rfl⟩

theorem moves_cease (s : State) (p : PortNo) : Moves s (s.cease p).1 := by
  unfold State.cease
  split
  · next hw =>
    split
    · next hc => exact .single (.ceaseWithdrawnCall p hw hc)
    · next hc => exact .single (.ceaseNow p (by simpa using hc))
  next hw =>
  split
  · exact moves_lineActions s p
  split
  · exact .refl
  next hs =>
  split
  · exact .single (.ceasing p (by simpa using hw) hs)
  · next hc => exact .single (.ceaseNow p (by simpa using hc))

end Sys2Proof.Machine
end

section
/-!
PROOFS. Every message of the exchange as a run of moves.
-/
namespace Sys2Proof.Machine

open Sys2Proof.Safety

variable {s : State}

/-- Whatever the outcome leaves is reached by moves. -/
def Reaches (s : State) (r : Result) : Prop := ∀ t, r = .next t → Moves s t

theorem reaches_next {t : State} (h : Moves s t) : Reaches s (.next t) := fun _ e => by cases e; exact h

/-- A message is taken by moves when its own rule is made of moves. -/
theorem reaches_takeMessage {f : State → State} (h : ∀ t, Moves t (f t)) : Reaches s (s.takeMessage f) := by
  refine reaches_next ?_
  split
  · have taken : Outward s { s with assembly := [] }.hold := ⟨rfl, rfl, rfl, rfl⟩
    exact ((Moves.of_outward taken).trans (h _)).trans (Moves.of_outward (outward_release _))
  · exact .refl

theorem reaches_provision {tag : Nat} {f : State → State} (h : ∀ t, Moves t (f t)) :
    Reaches s (s.takeMessage fun t => t.provision tag f) := by
  refine reaches_takeMessage fun t => ?_
  unfold State.provision
  split
  · exact .of_outward (outward_ack _ _ _)
  · exact h t

theorem moves_ack (s : State) (tag : Nat) (c : Code) : Moves s (s.ack tag c) := .of_outward (outward_ack s tag c)

theorem moves_reply (s : State) (m : Message) : Moves s (s.reply m) := .of_outward (outward_reply s m)

theorem moves_release (s : State) : Moves s s.release := .of_outward (outward_release s)

/-- A message that names a handle is made of moves when its rule is, given the record of the handle. -/
theorem moves_withHandle {tag : Nat} {a : Address} {take : EntryNo → Binding → State → State}
    (h : ∀ e b t, (t.entry e).binding = some b → Moves t (take e b t)) : Moves s (s.withHandle tag a take) := by
  unfold State.withHandle
  split
  · split
    · exact moves_ack _ _ _
    · next e b hf =>
      split
      · exact (moves_bindingFailure s e).trans (moves_ack _ _ _)
      · exact h e b s (findBinding_found hf).1
  · exact moves_ack _ _ _

/-! ## OFFER -/

theorem moves_counters {c : Counters} (h : Counted s → Counted { s with counters := c }) :
    Moves s { s with counters := c } :=
  .single (.aside (.of_tables rfl) (.of_still rfl h))

theorem counted_zero (s : State) : Counted { s with counters := Counters.zero } := by
  simp [Counted, CountersBounded, Counters.zero]

/-- A counter that rises keeps its range (11.5). -/
theorem moves_countNoSlot (s : State) : Moves s s.countNoSlot :=
  moves_counters fun ⟨h1, h2, h3, h4, _, h6, h7, h8, h9, h10, h11⟩ =>
    ⟨h1, h2, h3, h4, bump_le _, h6, h7, h8, h9, h10, h11⟩

theorem suspectAtUse_tables (s : State) (n : SlotNo) (k : Nat) : (s.suspectAtUse n k).tables = (s.suspect n).tables :=
  reporting_ends (s := s.countFault.suspect n) (P := fun t => t.tables = (s.suspect n).tables) _
    (fun _ hu => hu.tables) fun _ h => h

theorem allocate_ports (s : State) (c : LineClass) (fuel : Nat) : (s.allocate c fuel).1.ports = s.ports := by
  induction fuel generalizing s with
  | zero => rfl
  | succ fuel ih =>
    unfold State.allocate
    split
    · split
      · next n _ _ =>
        split
        · rw [ih]
          exact congrArg Tables.ports (suspectAtUse_tables s n 0)
        · rfl
      · rfl
    · rfl

/-- The cadence an OFFER rings with: the one it names, clamped, or the line's (R78). -/
def State.offeredCadence (s : State) (p : PortNo) : Option Nat → CadenceNo
  | some v => clampCadence v
  | none => (s.line p).cadence

/-- A binding joins the tail of the ring queue (R117). -/
def State.enqueue (s : State) (r : QueueEntry) : State := { s with ringQueue := s.ringQueue ++ [r] }

/-- The ring-queue entry of an accepted OFFER (R78). -/
def State.offerEntry (s : State) (p : PortNo) (cadence : Option Nat) : QueueEntry :=
  { handle := s.chooseHandle, port := p, cadence := s.offeredCadence p cadence, load := (s.line p).load }

/-- The binding of an accepted OFFER (R78). -/
def State.offerBinding (s : State) (p : PortNo) (n : SlotNo) (cadence : Option Nat) : Binding :=
  s.terminating p n (s.offeredCadence p cadence) s.chooseHandle

/-- An OFFER that finds a slot and an empty entry: bound, answered, queued to ring, and the budget pass (R78). -/
theorem bindOffer_eq (s : State) (tag : Nat) (p : PortNo) (n : SlotNo) (cadence : Option Nat) {e : EntryNo}
    (he : s.emptyEntry = some e) :
    s.bindOffer tag p n cadence =
      (((s.bindTo p n e (s.offerBinding p n cadence) ((s.port p).place .bound)).reply
        (.bound tag s.chooseHandle (slotNumber n))).enqueue (s.offerEntry p cadence)).budgetPass := by
  unfold State.bindOffer
  dsimp only
  rw [if_neg (by simp [he]), create_eq _ _ _ _ _ he]
  cases cadence <;> rfl

theorem Outward.enqueue {t : State} (h : Outward s t) (r : QueueEntry) : Outward (s.enqueue r) (t.enqueue r) := by
  have tables (u : State) : (u.enqueue r).tables = { u.tables with ringQueue := u.tables.ringQueue ++ [r] } := rfl
  exact ⟨by rw [tables, tables, h.tables], h.counters, h.params, h.sense⟩

theorem moves_bindOffer (s : State) (tag : Nat) {p : PortNo} {n : SlotNo} (cadence : Option Nat) (hn : n ∈ s.pool)
    (hs : (s.port p).sup = .idle) (hc : s.hasClearing p = false) : Moves s (s.bindOffer tag p n cadence) := by
  cases he : s.emptyEntry with
  | none =>
    unfold State.bindOffer
    dsimp only
    rw [if_pos (by simp [he])]
    exact moves_reply _ _
  | some e =>
    rw [bindOffer_eq s tag p n cadence he]
    refine .trans (Moves.outward (.single ?_) ((outward_reply _ _).enqueue _)) (moves_budgetPass _)
    exact .offer ⟨hn, he, rfl, rfl, rfl⟩ hs hc rfl (place_sup _ _) ⟨rfl, rfl, rfl⟩

theorem moves_offerPort (s : State) (tag : Nat) (p : PortNo) (cadence : Option Nat) :
    Moves s (s.offerPort tag p cadence) := by
  unfold State.offerPort
  split
  · exact moves_reply _ _
  · exact moves_reply _ _
  · next hs =>
    split
    · exact moves_reply _ _
    next hc =>
    obtain ⟨moves, found⟩ := moves_allocate s (s.line p).cls (s.pool.length + 1)
    have ports := allocate_ports s (s.line p).cls (s.pool.length + 1)
    have entries := allocate_entries s (s.line p).cls (s.pool.length + 1)
    split
    · next t h =>
      rw [State.admitSlot] at h
      rw [h] at moves
      exact (moves.trans (moves_countNoSlot t)).trans (moves_reply _ _)
    · next t n h =>
      rw [State.admitSlot] at h
      rw [h] at moves found ports entries
      exact moves.trans (moves_bindOffer t tag cadence (found n rfl) (by rw [State.port_congr ports]; exact hs)
        (by rw [hasClearing_congr entries]; simpa using hc))
  · exact moves_reply _ _

theorem reaches_offer (tag : Nat) (a : Address) (c : Option Nat) : Reaches s (execOffer tag a c s) := by
  refine reaches_takeMessage fun t => ?_
  split
  · exact moves_reply _ _
  split
  · exact moves_reply _ _
  split
  · exact (moves_lineActions t _).trans (moves_reply _ _)
  split
  · exact moves_reply _ _
  · exact moves_reply _ _
  · exact moves_reply _ _
  · exact moves_offerPort t _ _ _

/-! ## Messages that name a handle -/

theorem moves_connect {e : EntryNo} {b c : Binding} (h : (s.entry e).binding = some b) (hc : SameCall b c)
    (hp : b.phase ∈ [Phase.seizing, .dialling]) (hq : c.phase ∈ [Phase.dialling, .connected]) :
    Moves s (s.release.writeEntry e (some c)) :=
  (moves_release s).trans (.single (.connect e h hc hp hq))

theorem moves_rebind {e : EntryNo} {b c : Binding} (h : (s.entry e).binding = some b) (hc : c.ident = b.ident) :
    Moves s (s.writeEntry e (some c)) :=
  .single (.aside (.setEntry (by simp [h, hc])) (.congr rfl rfl rfl rfl))

theorem reaches_grant (tag : Nat) (a : Address) : Reaches s (execGrant tag a s) := by
  refine reaches_takeMessage fun t => moves_withHandle fun e b t h => ?_
  split
  · next hp =>
    refine Moves.outward ?_ (outward_sends _ _)
    exact moves_connect h ⟨rfl, rfl, rfl⟩ (by simp [hp]) (by simp)
  · exact moves_ack _ _ _

theorem moves_releaseRetire {e : EntryNo} {b : Binding} (h : (s.entry e).binding = some b) :
    Moves s (s.release.retire e b) := (moves_release s).trans (moves_retire h)

theorem reaches_deny (tag : Nat) (a : Address) : Reaches s (execDeny tag a s) := by
  refine reaches_takeMessage fun t => moves_withHandle fun e b t h => ?_
  split
  · exact moves_releaseRetire h
  · exact moves_ack _ _ _

theorem reaches_answer (tag : Nat) (a : Address) : Reaches s (execAnswer tag a s) := by
  refine reaches_takeMessage fun t => moves_withHandle fun e b t h => ?_
  split
  · next hp =>
    dsimp only
    split
    · exact (moves_lineActions t _).trans (moves_ack _ _ _)
    · exact moves_connect h ⟨rfl, rfl, rfl⟩ (by simp [hp]) (by simp)
  · exact moves_ack _ _ _

theorem reaches_clear (tag : Nat) (a : Address) (c : Nat) : Reaches s (execClear tag a c s) := by
  refine reaches_takeMessage fun t => moves_withHandle fun e b t h => ?_
  split
  · exact moves_releaseRetire h
  · exact (moves_reply t _).trans (moves_retire (by rwa [(outward_reply t _).entry]))

theorem reaches_cleared (tag : Nat) (a : Address) : Reaches s (execCleared tag a s) := by
  refine reaches_takeMessage fun t => moves_withHandle fun e b t h => ?_
  split
  · exact moves_releaseRetire h
  · exact moves_ack _ _ _

theorem entry_writeEntry (s : State) (e : EntryNo) (b : Option Binding) :
    ((s.writeEntry e b).entry e).binding = b := by
  unfold State.writeEntry
  simp

theorem moves_startTrain {e : EntryNo} {b : Binding} (h : (s.entry e).binding = some b) :
    Moves s (s.startTrain e b) := by
  unfold State.startTrain
  split
  · split
    · exact (moves_rebind (c := { b with pendingPulses := b.pendingPulses - 1 }) h rfl).trans
        (moves_setPort _ _ rfl fun h => h)
    · exact .refl
  · exact .refl

theorem moves_meterPulses (tag count : Nat) {e : EntryNo} {b : Binding} (h : (s.entry e).binding = some b) :
    Moves s (s.meterPulses tag count e b) := by
  unfold State.meterPulses
  dsimp only
  split
  · exact (moves_lineActions s _).trans (moves_ack _ _ _)
  split
  · refine (moves_release s).trans (.trans ?_ (moves_startTrain (entry_writeEntry _ _ _)))
    exact moves_rebind (s := s.release) h rfl
  · exact moves_release s

theorem reaches_meter (tag : Nat) (a : Address) (n : Nat) : Reaches s (execMeter tag a n s) := by
  refine reaches_takeMessage fun t => moves_withHandle fun e b t h => ?_
  split
  · exact moves_ack _ _ _
  dsimp only
  split
  · refine .trans ?_ (moves_meterPulses _ _ (entry_writeEntry _ _ _))
    exact moves_rebind h rfl
  · refine .trans ?_ (moves_meterPulses _ _ (entry_writeEntry _ _ _))
    exact moves_rebind h rfl
  · refine (moves_release t).trans ?_
    exact moves_rebind (s := t.release) h rfl
  · exact moves_ack _ _ _

/-! ## Slots -/

theorem moves_setSlot {n : SlotNo} {r : Slot} (hs : r.state = (s.slot n).state) (hh : r.handle = (s.slot n).handle) :
    Moves s (s.setSlot n r) := .single (.aside (.setSlot hs hh) (.congr rfl rfl rfl rfl))

theorem reaches_blockSlot (tag v : Nat) : Reaches s (execBlockSlot tag v s) := by
  refine reaches_takeMessage fun t => ?_
  split
  · exact moves_ack _ _ _
  next n _ =>
  split
  · next hs => exact .trans (.single (.blockSuspect n hs)) (moves_ack _ _ _)
  split
  · exact (moves_slotFailure t n).trans (moves_ack _ _ _)
  split
  · next hs => exact .trans (.single (.blockFree n hs)) (moves_ack _ _ _)
  · refine .trans ?_ (moves_ack _ _ _)
    exact moves_setSlot rfl rfl
  · exact moves_ack _ _ _

theorem reaches_unblockSlot (tag v : Nat) : Reaches s (execUnblockSlot tag v s) := by
  refine reaches_takeMessage fun t => ?_
  split
  · exact moves_ack _ _ _
  next n _ =>
  split
  · next hs => exact .trans (.single (.freeSlot n (.inl hs))) ((moves_ack _ _ _).trans (moves_service _))
  · next hs => exact .trans (.single (.freeSlot n (.inr hs))) ((moves_ack _ _ _).trans (moves_service _))
  · split
    · exact (moves_slotFailure t n).trans (moves_ack _ _ _)
    · refine .trans ?_ (moves_ack _ _ _)
      exact moves_setSlot rfl rfl
  · split
    · exact (moves_slotFailure t n).trans (moves_ack _ _ _)
    · exact moves_ack _ _ _

theorem reaches_querySlots (tag : Nat) : Reaches s (execQuerySlots tag s) := by
  refine reaches_takeMessage fun t => ?_
  split
  · refine (moves_foldl _ (fun u n => ?_) _ t).trans (moves_ack _ _ _)
    unfold State.readSlot
    split
    · exact moves_slotFailure u n
    · exact .refl
  · exact (moves_reply t _).outward (outward_send _ _)

/-! ## Test access -/

theorem moves_connectIdle (s : State) (tag : Nat) (p : PortNo) (hb : s.bus = none)
    (hs : (s.port p).sup ≠ .bound ∨ s.call p = none) : Moves s (s.connectIdle tag p) := by
  unfold State.connectIdle
  refine .trans (.single ?_) (moves_ack _ _ _)
  exact .connectIdle p hb hs (h := (s.leaveQueue p).testHold p) rfl (place_sup ((s.leaveQueue p).port p) _)

theorem moves_connectForced (s : State) (tag : Nat) (p : PortNo) (hb : s.bus = none) (hs : (s.port p).sup = .bound) :
    Moves s (s.connectForced tag p) := by
  unfold State.connectForced
  cases hc : s.call p with
  | none => exact moves_connectIdle s tag p hb (.inr hc)
  | some x =>
    obtain ⟨e, b⟩ := x
    have hbind := (findBinding_found hc).1
    obtain rfl := call_port hc
    dsimp only
    split
    · exact (moves_bindingFailure s e).trans (moves_ack _ _ _)
    refine Moves.outward ?_ (outward_ack _ _ _)
    unfold State.enterClearing State.clearingEffects
    dsimp only
    generalize hm : Message.clear b.handle .test b.meterCount = m
    have out := outward_sendNow s m
    refine (Moves.of_outward out).trans ?_
    generalize s.sendNow m = u at out ⊢
    let c := b.intoClearing (u.params.tRelease * secondMs)
    have hbus : u.bus = none := (congrArg Tables.bus out.tables).trans hb
    let q : Port := { ({ u.port b.port with injector := .idle } : Port).place .test with testLatch := s.latch b.port }
    have moved : ((u.writeEntry e (some c)).stopInjector b.port).connectBus b.port (s.latch b.port) =
        { (u.writeEntry e (some c)).setPort b.port q with bus := some (u.testHold b.port) } := by
      simp only [State.connectBus, State.stopInjector, State.setPort, State.port, State.testHold, q]
      simp
    rw [moved]
    refine .trans (.single (.clearTest e (b := b) (c := c) (q := q) (h := u.testHold b.port) ?_ ⟨rfl, rfl, rfl⟩ ?_ rfl hbus rfl
      (place_sup _ _))) ?_
    · rwa [out.entry]
    · rwa [out.port]
    · exact moves_leaveRinging { (u.writeEntry e (some c)).setPort b.port q with bus := some (u.testHold b.port) } _

theorem reaches_testConnect (tag : Nat) (a : Address) (f : Bool) : Reaches s (execTestConnect tag a f s) := by
  refine reaches_takeMessage fun t => ?_
  split
  · exact moves_ack _ _ _
  next p _ =>
  split
  · next h hb =>
    split
    · next hp =>
      refine .trans (.single (.aside (t := { t with bus := some (t.testHold p) }) ?_ (.congr rfl rfl rfl rfl)))
        (moves_ack _ _ _)
      have same := Alike.refl t
      exact { same with bus := by simp [hb, hp, State.testHold] }
    · exact moves_ack _ _ _
  · next hb =>
    split
    · next hs =>
      split
      · exact moves_connectForced t tag p hb hs
      · exact moves_ack _ _ _
    · next hs => exact moves_connectIdle t tag p hb (.inl hs)

theorem reaches_testRelease (tag : Nat) (a : Address) : Reaches s (execTestRelease tag a s) := by
  refine reaches_takeMessage fun t => ?_
  split
  · exact moves_ack _ _ _
  next p _ =>
  split
  · next h => exact (moves_disconnect t p (.inl h)).trans (moves_ack _ _ _)
  · exact moves_ack _ _ _

/-! ## Provisioning -/

theorem moves_moveCursor (s : State) (a : Address) (on : Bool) : Moves s (s.moveCursor a on) :=
  Moves.of_outward (outward_moveCursor s a on)

theorem reaches_readLine (tag : Nat) (a : Address) : Reaches s (execReadLine tag a s) := by
  refine reaches_takeMessage fun t => ?_
  split
  · exact moves_ack _ _ _
  split
  · exact (moves_lineActions t _).trans (moves_ack _ _ _)
  · exact (moves_reply t _).trans (moves_moveCursor _ _ _)

theorem reaches_queryLine (tag : Nat) (a : Address) : Reaches s (execQueryLine tag a s) := by
  refine reaches_takeMessage fun t => ?_
  split
  · exact moves_ack _ _ _
  split
  · exact (moves_lineActions t _).trans (moves_ack _ _ _)
  · exact moves_reply t _

theorem reaches_ceaseLine (tag : Nat) (a : Address) : Reaches s (execCeaseLine tag a s) := by
  refine reaches_provision fun t => ?_
  split
  · exact moves_ack _ _ _
  next p _ =>
  have moves := moves_cease t p
  split
  all_goals
    next h =>
    rw [h] at moves
    exact moves.trans (moves_ack _ _ _)

theorem ceaseNow_line (s : State) (p : PortNo) : ((s.ceaseNow p).line p).withdrawn = false := by
  have line (t : State) : (if (t.port p).sup = .test then t else t.place p .vacant).line p = t.line p := by
    split <;> rfl
  unfold State.ceaseNow
  dsimp only
  rw [line]
  show ((((s.leaveQueue p).writeLine p ((s.leaveQueue p).line p).ceased).line p)).withdrawn = false
  simp [State.writeLine]

theorem moves_writeVacant {p : PortNo} (w : LineWrite) (hc : s.call p = none) : Moves s (s.writeVacant p w) := by
  unfold State.writeVacant
  dsimp only
  have ceased : Moves s (if (s.line p).status = .vacant ∧ (s.line p).withdrawn = false then s else s.ceaseNow p) ∧
      ((if (s.line p).status = .vacant ∧ (s.line p).withdrawn = false then s else s.ceaseNow p).line p).withdrawn =
        false := by
    split
    · next h => exact ⟨.refl, h.2⟩
    · exact ⟨.single (.ceaseNow p hc), ceaseNow_line s p⟩
  generalize (if (s.line p).status = .vacant ∧ (s.line p).withdrawn = false then s else s.ceaseNow p) = t at ceased ⊢
  obtain ⟨moves, hw⟩ := ceased
  split
  · exact moves.trans (.single (.aside (.setLine rfl rfl hw.symm rfl) (.congr rfl rfl rfl rfl)))
  · exact moves

theorem moves_writeChecked (tag : Nat) (a : Address) (p : PortNo) (st : LineStatus) (c : LineClass) (w : LineWrite) :
    Moves s (s.writeChecked tag a p st c w) := by
  unfold State.writeChecked
  split
  · exact moves_ack _ _ _
  next hfree =>
  obtain ⟨hc, hq⟩ := not_or.mp hfree
  have call : s.call p = none := by simpa using hc
  split
  · exact ((moves_writeVacant w call).trans (moves_ack _ _ _)).trans (moves_moveCursor _ _ _)
  next hst =>
  have written (hk : ∀ q, s.portOfKey w.key = some q → q = p) (code : Code) :
      Moves s (((s.writeService p st c w).ack tag code).moveCursor a s.advance.write) :=
    .trans (.trans (.single (.writeService p c call hq hst hk)) (moves_ack _ _ _)) (moves_moveCursor _ _ _)
  split
  · next q hk =>
    split
    · next hqp => exact written (fun r hr => by rw [hk] at hr; cases hr; exact hqp) _
    · exact moves_ack _ _ _
  · next hk => exact written (fun r hr => by rw [hk] at hr; cases hr) _

theorem reaches_writeLine (tag : Nat) (a : Address) (w : LineWrite) : Reaches s (execWriteLine tag a w s) := by
  refine reaches_provision fun t => ?_
  split
  · exact moves_ack _ _ _
  split
  · split
    · exact (moves_lineActions t _).trans (moves_ack _ _ _)
    · exact moves_writeChecked _ _ _ _ _ _
  · exact moves_ack _ _ _

theorem moves_engine (s : State) (g : Engine) : Moves s { s with engine := g } := .of_outward ⟨rfl, rfl, rfl, rfl⟩

theorem reaches_clearRange (tag f l : Nat) : Reaches s (execClearRange tag f l s) := by
  refine reaches_provision fun t => ?_
  split
  · split
    · exact moves_ack _ _ _
    · exact moves_engine _ _
  · exact moves_ack _ _ _

theorem reaches_setCursor (tag p : Nat) : Reaches s (execSetCursor tag p s) :=
  reaches_provision fun t =>
    .trans (Moves.of_outward (t := { t with cursor := ⟨min p 47, by omega⟩ }) ⟨rfl, rfl, rfl, rfl⟩) (moves_ack _ _ _)

theorem reaches_setAdvance (tag : Nat) (w r : Bool) (d : Nat) : Reaches s (execSetAdvance tag w r d s) := by
  refine reaches_provision fun t => ?_
  split
  · next d _ =>
    exact .trans (Moves.of_outward (t := { t with advance := { write := w, read := r, direction := d } }) ⟨rfl, rfl, rfl, rfl⟩)
      (moves_ack _ _ _)
  · exact moves_ack _ _ _

theorem reaches_setPrefix (tag v : Nat) : Reaches s (execSetPrefix tag v s) :=
  reaches_provision fun t =>
    .trans (Moves.of_outward (t := { t with keyPrefix := v }) ⟨rfl, rfl, rfl, rfl⟩) (moves_ack _ _ _)

theorem reaches_setCadence (tag n : Nat) (ds : List Nat) : Reaches s (execSetCadence tag n ds s) := by
  refine reaches_takeMessage fun t => ?_
  split
  · exact moves_ack _ _ _
  split
  · exact moves_ack _ _ _
  next n _ =>
  split
  · exact .trans (Moves.of_outward (t := { t with cadences := t.cadences.set n (ds.map (clamp 1 100)) })
      ⟨rfl, rfl, rfl, rfl⟩) (moves_ack _ _ _)
  · exact moves_ack _ _ _

theorem reaches_readCadence (tag n : Nat) : Reaches s (execReadCadence tag n s) := by
  refine reaches_takeMessage fun t => ?_
  split
  · exact moves_ack _ _ _
  · exact moves_reply _ _

theorem reaches_readParam (tag : Nat) : Reaches s (execReadParam tag s) :=
  reaches_takeMessage fun t => moves_reply t _

theorem reaches_readCounters (tag : Nat) (b : Bool) : Reaches s (execReadCounters tag b s) := by
  refine reaches_takeMessage fun t => ?_
  dsimp only
  split
  · exact (moves_reply t _).trans (moves_counters fun _ => counted_zero _)
  · exact moves_reply t _

theorem reaches_badMessage (tag : Nat) : Reaches s (execBadMessage tag s) :=
  reaches_takeMessage fun t => moves_ack t _ _

/-! ## Parameters -/

/-- A state with the same tables and counters, its ordered parameters and its readings free to differ, comes to a budget
pass against the capacity they give (R122). -/
theorem moves_recompute {u : State} (ht : u.tables = s.tables) (hc : u.counters = s.counters) (hp : InOrder u.params)
    (hb : Bounded s → u.sense.band = u.bandNow) : Moves s u.recompute := by
  refine .single (.pass u.capacity (u := { u with available := u.capacity }) ?_ rfl ?_)
  · refine .of_tables ?_
    exact congrArg (fun t : Tables => { t with available := u.capacity }) ht
  · intro h
    have start : Bounded { u with available := u.capacity } :=
      ⟨counted_congr (s := s) hc h.1, hp, rfl, hb h⟩
    exact Bounded.of_still (still_budgetPass _) (counted_budgetPass _) start

/-- The same with the band evaluated after it (R153). -/
theorem moves_recompute_evalBand {u : State} (ht : u.tables = s.tables) (hc : u.counters = s.counters)
    (hp : InOrder u.params) : Moves s u.recompute.evalBand := by
  refine .single (.pass u.capacity (u := { u with available := u.capacity }) ?_ rfl ?_)
  · refine .of_tables ?_
    exact congrArg (fun t : Tables => { t with available := u.capacity }) ht
  · intro h
    have still : u.recompute.still = ({ u with available := u.capacity } : State).still := still_budgetPass _
    have counted : Counted u.recompute := counted_budgetPass { u with available := u.capacity }
      (counted_congr (s := s) hc h.1)
    refine ⟨counted, ?_, ?_, rfl⟩
    · show InOrder u.recompute.params
      rw [show u.recompute.params = u.params from congrArg Still.params still]
      exact hp
    · show u.recompute.available = u.recompute.evalBand.capacity
      have params : u.recompute.params = u.params := congrArg Still.params still
      have sense : u.recompute.sense = u.sense := congrArg Still.sense still
      rw [show u.recompute.available = u.capacity from congrArg Still.available still]
      unfold State.capacity State.bandNow State.temperatureTaken State.batteryTaken State.evalBand
      simp only [params, sense]

/-- A parameter that neither the capacity nor the band depends on is stored. -/
theorem moves_params {u : State} (ht : u.tables = s.tables) (hc : u.counters = s.counters) (hp : InOrder u.params)
    (hf : CapacityFollows s → CapacityFollows u) : Moves s u :=
  .single (.aside (.of_tables ht) fun h => ⟨counted_congr (s := s) hc h.1, hp, hf h.2.2⟩)

theorem channelChanged_eq (s : State) (c : Channel) (b : Bool) :
    s.channelChanged c b = { s with sense := if b then s.sense.setFault c 0 false else s.sense } := by
  unfold State.channelChanged
  split <;> rfl

theorem setFault_readings (q : Sense) (c : Channel) (run : Nat) (f : Bool) :
    (q.setFault c run f).heldB = q.heldB ∧ (q.setFault c run f).heldT = q.heldT ∧ (q.setFault c run f).band = q.band := by
  cases c <;> exact ⟨rfl, rfl, rfl⟩

/-- The band depends on the temperature channel alone (R121, R153). -/
theorem bandNow_congr {s t : State} (hon : t.params.temperature = s.params.temperature)
    (hh : t.params.tHot = s.params.tHot) (ht : t.params.tTrip = s.params.tTrip) (hs : t.sense.heldT = s.sense.heldT) :
    t.bandNow = s.bandNow := by
  unfold State.bandNow State.temperatureTaken
  rw [hon, hh, ht, hs]

/-- A stored parameter and what it sets off (R202). -/
theorem moves_paramEffects (tag : Nat) (c : Code) {q : Params} (p : Param) (v : Nat) (hset : q = s.params.set p v)
    (hq : InOrder q) : Moves s (({ s with params := q }.ack tag c).paramEffects p s.params) := by
  have out := outward_ack { s with params := q } tag c
  generalize ({ s with params := q } : State).ack tag c = u at out ⊢
  have tables : u.tables = s.tables := out.tables
  have counters : u.counters = s.counters := out.counters
  have params : u.params = q := out.params
  have sense : u.sense = s.sense := out.sense
  have order : InOrder u.params := by rw [params]; exact hq
  have changed (ch : Channel) (b : Bool) : (u.channelChanged ch b).tables = s.tables ∧
      (u.channelChanged ch b).counters = s.counters ∧ InOrder (u.channelChanged ch b).params ∧
      (u.channelChanged ch b).bandNow = u.bandNow ∧ (u.channelChanged ch b).sense.band = u.sense.band := by
    rw [channelChanged_eq]
    refine ⟨tables, counters, order, bandNow_congr rfl rfl rfl ?_, ?_⟩ <;> dsimp only <;> split
    · exact (setFault_readings _ _ _ _).2.1
    · rfl
    · exact (setFault_readings _ _ _ _).2.2
    · rfl
  have band (h1 : q.temperature = s.params.temperature) (h2 : q.tHot = s.params.tHot) (h3 : q.tTrip = s.params.tTrip)
      (h : Bounded s) : u.sense.band = u.bandNow := by
    rw [bandNow_congr (s := s) (by rw [params, h1]) (by rw [params, h2]) (by rw [params, h3]) (by rw [sense]), sense]
    exact h.2.2.2
  have later (hcap : u.capacity = s.capacity) (hband : u.bandNow = s.bandNow) : Moves s u :=
    moves_params tables counters order fun h => by
      unfold CapacityFollows
      rw [hcap, hband, sense, show u.available = s.available from congrArg Tables.available tables]
      exact h
  have same (h1 : u.params.g = s.params.g) (h2 : u.params.bFull = s.params.bFull) (h3 : u.params.bCut = s.params.bCut)
      (h4 : u.params.tHot = s.params.tHot) (h5 : u.params.tTrip = s.params.tTrip)
      (h6 : u.params.battery = s.params.battery) (h7 : u.params.temperature = s.params.temperature) : Moves s u := by
    have hband : u.bandNow = s.bandNow := bandNow_congr h7 h4 h5 (by rw [sense])
    refine later ?_ hband
    unfold State.capacity State.batteryTaken Params.batteryDerated State.temperatureTaken
    rw [hband, h1, h2, h3, h4, h5, h6, h7, sense]
  subst hset
  rw [params] at same
  cases p with
  | g => exact moves_recompute tables counters order (band rfl rfl rfl)
  | bFull => exact moves_recompute tables counters order (band rfl rfl rfl)
  | bCut => exact moves_recompute tables counters order (band rfl rfl rfl)
  | tHot => exact moves_recompute_evalBand tables counters order
  | tTrip => exact moves_recompute_evalBand tables counters order
  | reserve =>
    have stored := same rfl rfl rfl rfl rfl rfl rfl
    show Moves s (if _ then _ else _)
    split
    · exact stored.trans (moves_service u)
    · exact stored
  | battery =>
    obtain ⟨ht, hc, hp, hb1, hb2⟩ := changed .battery (s.params.battery != u.params.battery)
    have passed := moves_recompute ht hc hp fun h => by rw [hb1, hb2]; exact band rfl rfl rfl h
    show Moves s (if _ then _ else _)
    split
    · exact passed.trans (moves_enterPower _ _)
    · exact passed
  | temperature =>
    obtain ⟨ht, hc, hp, -, -⟩ := changed .temperature (s.params.temperature != u.params.temperature)
    exact moves_recompute_evalBand ht hc hp
  | _ => exact same rfl rfl rfl rfl rfl rfl rfl

theorem reaches_setParam (tag p v : Nat) : Reaches s (execSetParam tag p v s) := by
  refine reaches_takeMessage fun t => ?_
  split
  · exact moves_ack _ _ _
  split
  · exact moves_ack _ _ _
  dsimp only
  split
  · next h =>
    exact (moves_paramEffects tag _ _ _ rfl ((Params.ordered_iff _).mp h)).outward (outward_reportPower _ _)
  · exact moves_ack _ _ _

end Sys2Proof.Machine
end

section
/-!
PROOFS. Every event of the part's own as a run of moves, and with them every step.
-/
namespace Sys2Proof.Machine

open Sys2Proof.Safety

variable {s : State}

/-! ## Counters that rise (11.5) -/

theorem moves_countAttempt (s : State) :
    Moves s { s with counters := { s.counters with attempted := bump s.counters.attempted } } :=
  moves_counters (c := { s.counters with attempted := bump s.counters.attempted })
    fun ⟨_, h2, h3, h4, h5, h6, h7, h8, h9, h10, h11⟩ =>
      ⟨bump_le _, h2, h3, h4, h5, h6, h7, h8, h9, h10, h11⟩

theorem moves_countQueued (s : State) :
    Moves s { s with counters := { s.counters with queued := bump s.counters.queued } } :=
  moves_counters (c := { s.counters with queued := bump s.counters.queued })
    fun ⟨h1, _, h3, h4, h5, h6, h7, h8, h9, h10, h11⟩ =>
      ⟨h1, bump_le _, h3, h4, h5, h6, h7, h8, h9, h10, h11⟩

theorem moves_countWaitTimeout (s : State) :
    Moves s { s with counters := { s.counters with waitTimeouts := bump s.counters.waitTimeouts } } :=
  moves_counters (c := { s.counters with waitTimeouts := bump s.counters.waitTimeouts })
    fun ⟨h1, h2, _, h4, h5, h6, h7, h8, h9, h10, h11⟩ =>
      ⟨h1, h2, bump_le _, h4, h5, h6, h7, h8, h9, h10, h11⟩

theorem moves_countAbandon (s : State) :
    Moves s { s with counters := { s.counters with abandons := bump s.counters.abandons } } :=
  moves_counters (c := { s.counters with abandons := bump s.counters.abandons })
    fun ⟨h1, h2, h3, _, h5, h6, h7, h8, h9, h10, h11⟩ =>
      ⟨h1, h2, h3, bump_le _, h5, h6, h7, h8, h9, h10, h11⟩

theorem moves_countRingwaitTimeout (s : State) :
    Moves s { s with counters := { s.counters with ringwaitTimeouts := bump s.counters.ringwaitTimeouts } } :=
  moves_counters (c := { s.counters with ringwaitTimeouts := bump s.counters.ringwaitTimeouts })
    fun ⟨h1, h2, h3, h4, h5, h6, _, h8, h9, h10, h11⟩ =>
      ⟨h1, h2, h3, h4, h5, h6, bump_le _, h8, h9, h10, h11⟩

theorem moves_countReleaseTimeout (s : State) :
    Moves s { s with counters := { s.counters with releaseTimeouts := bump s.counters.releaseTimeouts } } :=
  moves_counters (c := { s.counters with releaseTimeouts := bump s.counters.releaseTimeouts })
    fun ⟨h1, h2, h3, h4, h5, h6, h7, _, h9, h10, h11⟩ =>
      ⟨h1, h2, h3, h4, h5, h6, h7, bump_le _, h9, h10, h11⟩

theorem moves_countEarlyOverflow (s : State) :
    Moves s { s with counters := { s.counters with earlyOverflows := bump s.counters.earlyOverflows } } :=
  moves_counters (c := { s.counters with earlyOverflows := bump s.counters.earlyOverflows })
    fun ⟨h1, h2, h3, h4, h5, h6, h7, h8, _, h10, h11⟩ =>
      ⟨h1, h2, h3, h4, h5, h6, h7, h8, bump_le _, h10, h11⟩

theorem moves_countBadFrame (s : State) :
    Moves s { s with counters := { s.counters with badFrames := bump s.counters.badFrames } } :=
  moves_counters (c := { s.counters with badFrames := bump s.counters.badFrames })
    fun ⟨h1, h2, h3, h4, h5, h6, h7, h8, h9, _, h11⟩ =>
      ⟨h1, h2, h3, h4, h5, h6, h7, h8, h9, bump_le _, h11⟩

/-! ## Call timers, the sweep, readings -/

theorem moves_onExpiry {handle : Nat} {runs : Binding → Bool} {take : EntryNo → Binding → State → State}
    (h : ∀ e b, (s.entry e).binding = some b → runs b = true → Moves s (take e b s)) :
    Moves s (s.onExpiry handle runs take) := by
  unfold State.onExpiry
  split
  · exact .refl
  · next e b hf =>
    split
    · next hr =>
      split
      · exact moves_bindingFailure s e
      · exact h e b (findBinding_found hf).1 hr
    · exact .refl

theorem moves_enterClearing_toIdle {e : EntryNo} {b : Binding} (h : (s.entry e).binding = some b)
    (hp : b.phase ≠ .clearing) (c : Cause) : Moves s (s.enterClearing e b c fun t => t.toIdle b.port) :=
  moves_enterClearing h hp c fun t => ⟨(t.port b.port).toIdle, toIdle_free _, rfl⟩

theorem reaches_tAcceptExpiry (h : Nat) : Reaches s (execTAcceptExpiry h s) := by
  refine reaches_next (moves_onExpiry fun e b hb hr => ?_)
  have seizing : b.phase = .seizing := by simp [Binding.acceptRuns] at hr; exact hr.1
  exact moves_enterClearing hb (by simp [seizing]) _ fun t => ⟨_, place_free (t.port b.port) (by simp), rfl⟩

theorem reaches_tRingwaitExpiry (h : Nat) : Reaches s (execTRingwaitExpiry h s) := by
  refine reaches_next (moves_onExpiry fun e b hb hr => ?_)
  have waiting : b.phase = .ringWait := by simp [Binding.ringwaitRuns] at hr; exact hr.1
  exact .trans (moves_countRingwaitTimeout s)
    (moves_enterClearing_toIdle (s := { s with counters := { s.counters with ringwaitTimeouts := bump s.counters.ringwaitTimeouts } }) hb
      (by simp [waiting]) _)

theorem reaches_tRingmaxExpiry (h : Nat) : Reaches s (execTRingmaxExpiry h s) := by
  refine reaches_next (moves_onExpiry fun e b hb hr => ?_)
  refine moves_enterClearing_toIdle hb ?_ _
  rintro hc
  simp [Binding.ringmaxRuns, hc] at hr

theorem reaches_tReleaseExpiry (h : Nat) : Reaches s (execTReleaseExpiry h s) := by
  refine reaches_next (moves_onExpiry fun e b hb hr => ?_)
  exact .trans (moves_countReleaseTimeout s)
    (moves_retire (s := { s with counters := { s.counters with releaseTimeouts := bump s.counters.releaseTimeouts } }) hb)

theorem reaches_tWaitExpiry (p : PortNo) : Reaches s (execTWaitExpiry p s) := by
  refine reaches_next ?_
  split
  · next h =>
    exact .trans (moves_countWaitTimeout s)
      (.single (.unqueue (s := { s with counters := { s.counters with waitTimeouts := bump s.counters.waitTimeouts } }) p
        (.inl h) (place_free (s.port p) (by simp))))
  · exact .refl

theorem reaches_sweepStep : Reaches s (execSweepStep s) := by
  refine reaches_next ?_
  split
  · exact .refl
  refine .trans (Moves.of_outward (t := { s with sweepPos := s.sweepPos + 1, sweepLeft := sweepStepMs })
    ⟨rfl, rfl, rfl, rfl⟩) ?_
  unfold State.sweepRead
  split
  · split
    · exact moves_lineActions _ _
    · exact .refl
  · split
    · exact moves_slotFailure _ _
    · exact .refl
  · split
    · exact moves_bindingFailure _ _
    · exact .refl

theorem reaches_storageUpset (l : Location) : Reaches s (execStorageUpset l s) := by
  refine reaches_next ?_
  split
  · exact .single (.aside (.setLine rfl rfl rfl rfl) (.congr rfl rfl rfl rfl))
  · exact moves_setSlot rfl rfl
  · exact .single (.aside (.setEntry rfl) (.congr rfl rfl rfl rfl))

theorem moves_invalidStep (s : State) (c : Channel) : Moves s (s.invalidStep c) := by
  obtain ⟨hB, hT, hband⟩ := setFault_readings s.sense c (min (s.sense.run c + 1) 5)
    (s.sense.fault c || decide (min (s.sense.run c + 1) 5 = 5))
  generalize hq : s.sense.setFault c (min (s.sense.run c + 1) 5)
    (s.sense.fault c || decide (min (s.sense.run c + 1) 5 = 5)) = q at hB hT hband
  have written : Moves s { s with sense := q } := by
    refine .single (.aside (.of_tables rfl) fun ⟨h1, h2, h3⟩ => ⟨h1, h2, ?_⟩)
    unfold CapacityFollows State.capacity State.bandNow State.temperatureTaken State.batteryTaken at *
    dsimp only
    rw [hB, hT, hband]
    exact h3
  unfold State.invalidStep
  dsimp only
  rw [hq]
  split
  · exact Moves.outward written (outward_send _ _)
  · exact written

theorem moves_validStep (s : State) (c : Channel) (v : Int) : Moves s (s.validStep c v) := by
  unfold State.validStep
  dsimp only
  refine Moves.outward ?_ (outward_reportPower _ _)
  generalize hq : (s.sense.setHeld c v).setFault c 0 false = q
  have out : Outward { s with sense := q }
      (if s.sense.fault c then ({ s with sense := q } : State).send (.sense c .ok) else { s with sense := q }) := by
    split
    · exact outward_send _ _
    · exact .refl _
  generalize (if s.sense.fault c = true then ({ s with sense := q } : State).send (.sense c .ok)
    else { s with sense := q }) = u at out ⊢
  have params : u.params = s.params := out.params
  have tables : u.tables = s.tables := out.tables
  have counters : u.counters = s.counters := out.counters
  by_cases order : InOrder s.params
  · have horder : InOrder u.params := by rw [params]; exact order
    cases c with
    | battery =>
      have held : u.sense.heldT = s.sense.heldT ∧ u.sense.band = s.sense.band := by
        rw [show u.sense = q from out.sense, ← hq]; exact ⟨rfl, rfl⟩
      refine (moves_recompute tables counters horder fun h => ?_).trans (moves_enterPower _ _)
      rw [held.2, bandNow_congr (s := s) (by rw [params]) (by rw [params]) (by rw [params]) held.1]
      exact h.2.2.2
    | temperature => exact moves_recompute_evalBand tables counters horder
  · have unbounded : ¬ Bounded s := fun h => order h.2.1
    have passed : Moves s u.recompute :=
      .single (.pass u.capacity (u := { u with available := u.capacity })
        (.of_tables (congrArg (fun t : Tables => { t with available := u.capacity }) tables)) rfl
        fun h => absurd h unbounded)
    cases c with
    | battery => exact passed.trans (moves_enterPower _ _)
    | temperature =>
      exact .single (.pass u.capacity (u := { u with available := u.capacity })
        (.of_tables (congrArg (fun t : Tables => { t with available := u.capacity }) tables)) rfl
        fun h => absurd h unbounded)

theorem reaches_senseReading (c : Channel) (v : Option Int) : Reaches s (execSenseReading c v s) := by
  refine reaches_next ?_
  split
  · exact .refl
  split
  · split
    · exact moves_validStep s c _
    · exact moves_invalidStep s c
  · exact moves_invalidStep s c

/-! ## The line side -/

theorem rests_fed {q : Port} (h : q.sup.fed = true) : q.Rests := fun hf => by simp [h] at hf

theorem moves_deliver (s : State) (p : PortNo) (d : Dialled) : Moves s (s.deliver p d) := by
  unfold State.deliver
  split
  · split
    · exact .refl
    next e b hc =>
    have hb := (findBinding_found hc).1
    split
    · split
      · exact moves_bindingFailure s e
      · unfold State.appendEarly
        split
        · exact moves_countEarlyOverflow s
        · exact moves_rebind hb rfl
    · split
      · exact moves_bindingFailure s e
      · exact .of_outward (outward_send s _)
    · split
      · exact moves_bindingFailure s e
      · exact .of_outward (outward_send s _)
    · exact .refl
  · exact .refl

theorem moves_clearCount (s : State) (p : PortNo) : Moves s (s.clearCount p) := moves_setPort s p rfl fun h => h

theorem moves_flash (s : State) (p : PortNo) : Moves s (s.flash p) := by
  unfold State.flash
  dsimp only
  split
  · exact (moves_clearCount s p).trans ((moves_deliver _ _ _).trans (moves_deliver _ _ _))
  · exact (moves_clearCount s p).trans (moves_deliver _ _ _)

theorem reaches_digitEnd (p : PortNo) : Reaches s (execDigitEnd p s) := by
  refine reaches_next ?_
  split
  · split
    · exact moves_clearCount s p
    · exact (moves_clearCount s p).trans (moves_deliver _ _ _)
  · exact .refl

theorem moves_joinQueue (s : State) (p : PortNo) (h : (s.port p).sup = .idle) : Moves s (s.joinQueue p) :=
  .trans (moves_countQueued s)
    (.single (.join (s := { s with counters := { s.counters with queued := bump s.counters.queued } }) p h (w := { port := p, left := _ }) rfl (place_sup _ _)))

theorem moves_originate (s : State) (p : PortNo) (h : (s.port p).sup = .idle) : Moves s (s.originate p) := by
  have locked : Moves s (s.place p .lockout) := moves_place s p (by simp [h]) (by simp)
  unfold State.originate
  split
  · next hw => exact .single (.requarantine p h hw)
  split
  · exact moves_lineActions s p
  split
  · exact locked
  split
  · exact locked
  split
  · exact moves_joinQueue s p h
  next hc =>
  obtain ⟨moves, found⟩ := moves_allocate s (s.line p).cls (s.pool.length + 1)
  have ports := allocate_ports s (s.line p).cls (s.pool.length + 1)
  have entries := allocate_entries s (s.line p).cls (s.pool.length + 1)
  split
  · next t ha =>
    rw [State.admitSlot] at ha
    rw [ha] at moves ports
    exact moves.trans (moves_joinQueue t p (by rw [State.port_congr ports]; exact h))
  · next t n ha =>
    rw [State.admitSlot] at ha
    rw [ha] at moves ports entries found
    exact moves.trans (moves_seize_idle (found n rfl) (by rw [State.port_congr ports]; exact h)
      (by rw [hasClearing_congr entries]; simpa using hc))

theorem moves_answerRing {e : EntryNo} {b : Binding} (h : (s.entry e).binding = some b)
    (hp : b.phase ∈ [Phase.ringWait, .ringing]) : Moves s (s.answerRing e b) := by
  unfold State.answerRing
  dsimp only
  have out := outward_send s (.answered b.handle)
  have hb : ((s.send (.answered b.handle)).entry e).binding = some b := by rwa [out.entry]
  exact (Moves.of_outward out).trans (.trans (.single
    (.answer (c := { b with phase := .connected, tRingwait := none, tRingmax := none }) e hb ⟨rfl, rfl, rfl⟩ hp rfl))
    (moves_leaveRinging ((s.send (.answered b.handle)).writeEntry e
      (some { b with phase := .connected, tRingwait := none, tRingmax := none })) b.handle))

theorem moves_offHookBound (s : State) (p : PortNo) : Moves s (s.offHookBound p) := by
  unfold State.offHookBound
  split
  · exact .refl
  next e b hc =>
  have hb := (findBinding_found hc).1
  split
  · next hp =>
    split
    · exact moves_bindingFailure s e
    · exact moves_answerRing hb (by simp [hp])
  · next hp =>
    split
    · exact moves_bindingFailure s e
    · exact moves_answerRing hb (by simp [hp])
  · exact .refl

theorem moves_offHook (s : State) (p : PortNo) {n : Nat} (hc : (s.port p).classifier = .closure n) :
    Moves s (s.offHook p) := by
  have declared : Moves s (s.setPort p { s.port p with hook := .off, classifier := .make, pulses := 0, makeTimer := none }) :=
    moves_setPort s p rfl fun hr hf => by
      have rest := (hr hf).2
      rw [hc] at rest
      cases rest
  unfold State.offHook
  dsimp only
  split
  · next h =>
    refine declared.trans (.trans (moves_countAttempt _) (moves_originate _ p ?_))
    · show ((s.setPort p _).port p).sup = .idle
      rw [State.port_setPort, if_pos rfl]
      exact h
  · exact declared.trans (moves_offHookBound _ p)
  · exact declared

theorem reaches_offHookDeclared (p : PortNo) : Reaches s (execOffHookDeclared p s) := by
  refine reaches_next ?_
  split
  · next hc => exact moves_offHook s p hc
  · exact .refl

theorem moves_onHookBound (s : State) (p : PortNo) : Moves s (s.onHookBound p) := by
  unfold State.onHookBound
  split
  · exact .refl
  next e b hc =>
  have hb := (findBinding_found hc).1
  have cleared (hp : b.phase ≠ .clearing) : Moves s
      (if (s.entry e).damaged then s.bindingFailure e else s.enterClearing e b .lineClear fun t => t.toIdle p) := by
    split
    · exact moves_bindingFailure s e
    · rw [← call_port hc]
      exact moves_enterClearing_toIdle hb hp _
  split
  · next hp => exact cleared (by simp [hp])
  · next hp => exact cleared (by simp [hp])
  · next hp => exact cleared (by simp [hp])
  · exact .refl

theorem moves_onHook (s : State) (p : PortNo) : Moves s (s.onHook p) := by
  have declared : Moves s (s.setPort p { s.port p with hook := .on, classifier := .atRest, pulses := 0, makeTimer := none }) :=
    moves_setPort s p rfl fun _ _ => ⟨rfl, rfl⟩
  have kept : ((s.setPort p { s.port p with hook := .on, classifier := .atRest, pulses := 0, makeTimer := none }).port
      p).sup = (s.port p).sup := by simp
  unfold State.onHook
  dsimp only
  generalize s.setPort p { s.port p with hook := .on, classifier := .atRest, pulses := 0, makeTimer := none } = t
    at declared kept ⊢
  split
  · exact declared.trans (moves_onHookBound _ p)
  · next h =>
    exact declared.trans (.trans (moves_countAbandon t)
      (.single (.unqueue (s := { t with counters := { t.counters with abandons := bump t.counters.abandons } }) p
        (.inr (kept.trans h)) (toIdle_free (t.port p)))))
  · next h => exact declared.trans (.single (.place p (by simp [kept, h]) (toIdle_free _)))
  · exact declared

theorem reaches_onHookDeclared (p : PortNo) : Reaches s (execOnHookDeclared p s) := by
  refine reaches_next ?_
  split
  · exact moves_onHook s p
  · exact .refl

theorem moves_closeLoop (s : State) (p : PortNo) (ms : Nat) (hf : (s.port p).sup.fed = true) :
    Moves s (s.closeLoop p ms) := by
  unfold State.closeLoop
  dsimp only
  split
  · split
    · exact moves_setPort s p rfl fun _ => rests_fed hf
    split
    · exact moves_setPort s p rfl fun _ => rests_fed hf
    split
    · refine .trans ?_ (moves_flash _ p)
      exact moves_setPort s p rfl fun _ => rests_fed hf
    · refine (moves_onHook s p).trans ?_
      split
      · next h => exact moves_setPort _ p rfl fun _ => rests_fed h
      · exact .refl
  · split
    · exact moves_setPort s p rfl fun _ => rests_fed hf
    · exact .refl
  · exact .refl

theorem moves_setLoop (s : State) (p : PortNo) (b : Bool) : Moves s (s.setLoop p b) := moves_setPort s p rfl fun h => h

theorem senses_fed {p : PortNo} (h : s.senses p = true) : (s.port p).sup.fed = true := by
  unfold State.senses at h
  simp only [Bool.and_eq_true] at h
  exact h.1

theorem reaches_loopClosed (p : PortNo) (ms : Nat) : Reaches s (execLoopClosed p ms s) := by
  refine reaches_next ?_
  split
  · exact .refl
  dsimp only
  split
  · next h => exact (moves_setLoop s p true).trans (moves_closeLoop _ p ms (senses_fed h))
  · exact moves_setLoop s p true

theorem reaches_loopOpen (p : PortNo) : Reaches s (execLoopOpen p s) := by
  refine reaches_next ?_
  split
  · dsimp only
    refine (moves_setLoop s p false).trans ?_
    split
    · next h =>
      split
      · exact moves_setPort _ p rfl fun _ => rests_fed (senses_fed h)
      · exact moves_setPort _ p rfl fun _ => rests_fed (senses_fed h)
      · exact .refl
    · exact .refl
  · exact .refl

theorem reaches_pulseEnd (p : PortNo) : Reaches s (execPulseEnd p s) := by
  refine reaches_next ?_
  split
  · exact moves_setPort s p rfl fun h => h
  · exact .refl

theorem reaches_gapEnd (p : PortNo) : Reaches s (execGapEnd p s) := by
  have idled : Moves s (s.setPort p { s.port p with injector := .idle }) := moves_setPort s p rfl fun h => h
  refine reaches_next ?_
  split
  · split
    · next e b hc =>
      have hb := (findBinding_found hc).1
      unfold State.endGap
      dsimp only
      split
      · split
        · exact idled.trans (moves_bindingFailure _ e)
        · exact idled.trans (moves_startTrain (s := s.setPort p { s.port p with injector := .idle }) hb)
      · exact idled
    · exact idled
  · exact .refl

theorem reaches_segmentEnd (h : Nat) : Reaches s (execSegmentEnd h s) := by
  refine reaches_next (.single (.aside ?_ (.congr rfl rfl rfl rfl)))
  have same := Alike.refl s
  refine { same with ringList := ?_ }
  rw [List.map_map]
  refine List.map_congr_left fun r _ => ?_
  dsimp only [Function.comp]
  split <;> rfl

/-! ## Test bus, range walk, link, reset -/

theorem reaches_tTestExpiry : Reaches s (execTTestExpiry s) := by
  refine reaches_next ?_
  split
  · exact .refl
  · next h hb =>
    exact .trans (Moves.of_outward (outward_hold s))
      ((moves_disconnect s.hold h.port (.inr (by simp [hb]))).trans (moves_reply _ _))

theorem moves_endWalk (s : State) (w : RangeWalk) (m : Message) : Moves s (s.endWalk w m) := by
  unfold State.endWalk
  dsimp only
  split
  · exact (moves_engine s _).trans (moves_release _)
  · exact (moves_engine s _).trans (moves_reply _ _)

theorem reaches_rangeStep : Reaches s (execRangeStep s) := by
  refine reaches_next ?_
  split
  · next w _ =>
    have ceased : Moves s (s.hold.cease w.pos).1 := .trans (Moves.of_outward (outward_hold s)) (moves_cease _ _)
    split
    · next t h => rw [h] at ceased; exact ceased.trans (moves_endWalk t w _)
    · next t o _ h =>
      rw [h] at ceased
      refine ceased.trans ?_
      dsimp only
      generalize { w with
        madeVacant := w.madeVacant + (if o = CeaseOutcome.madeVacant then 1 else 0)
        madeCeasing := w.madeCeasing + (if o = CeaseOutcome.madeCeasing then 1 else 0) } = v
      by_cases last : w.last ≤ w.pos
      · simp only [if_pos last]
        exact moves_endWalk t _ _
      · simp only [if_neg last]
        exact (moves_engine t _).trans (moves_release _)
  · exact .refl

theorem reaches_framerLost : Reaches s (execFramerLost s) := by
  refine reaches_next ?_
  split
  · exact .refl
  dsimp only
  split <;> exact .of_outward ⟨rfl, rfl, rfl, rfl⟩

theorem outward_tryAlign (s : State) : Outward s s.tryAlign := by
  unfold State.tryAlign
  split
  · exact ⟨rfl, rfl, rfl, rfl⟩
  · exact .refl s

theorem reaches_framerAligned : Reaches s (execFramerAligned s) := by
  refine reaches_next ?_
  split
  · exact .refl
  dsimp only
  have recorded : Outward s { s with framer := .aligned } := ⟨rfl, rfl, rfl, rfl⟩
  split
  · exact .of_outward ⟨rfl, rfl, rfl, rfl⟩
  · exact .of_outward recorded
  · exact .of_outward (recorded.trans (outward_tryAlign _))

theorem reaches_lossHoldExpiry : Reaches s (execLossHoldExpiry s) := by
  refine reaches_next ?_
  split
  · exact .single .linkLoss
  · exact .refl

theorem outward_sendRestart (s : State) (c : RestartCause) (n : Nat) : Outward s (s.sendRestart c n) := by
  have sent := (outward_send s (.restart c n)).trans (outward_send _ s.powerReport)
  unfold State.sendRestart
  dsimp only
  split
  · split
    · exact (sent.trans (outward_send _ _)).trans (outward_send _ _)
    · exact sent.trans (outward_send _ _)
  · split
    · exact sent.trans (outward_send _ _)
    · exact sent

theorem reaches_alignmentHoldExpiry : Reaches s (execAlignmentHoldExpiry s) := by
  refine reaches_next ?_
  split
  · exact .trans (Moves.of_outward (t := { s with link := .up, alignHold := none, assembly := [], pendingRestart := .none })
      ⟨rfl, rfl, rfl, rfl⟩) (Moves.of_outward (outward_sendRestart _ _ _))
  · exact .refl

theorem reaches_resetCabinet (tag : Nat) : Reaches s (execResetCabinet tag s) := by
  refine reaches_next ?_
  split
  · exact (moves_ack s tag .ok).trans (Moves.outward (.single .warmReset) (outward_sendRestart _ _ _))
  · exact .refl

theorem outward_linkHeld (s : State) (r : PendingRestart) :
    Outward s { s with link := .down, lossHold := none, alignHold := none, assembly := [], pendingRestart := r } :=
  ⟨rfl, rfl, rfl, rfl⟩

theorem reaches_resetLineAsserted : Reaches s (execResetLineAsserted s) := by
  refine reaches_next ?_
  split
  · exact .refl
  dsimp only
  have recorded : Moves s { s with resetLine := .asserted } := .of_outward ⟨rfl, rfl, rfl, rfl⟩
  split
  · exact recorded
  · exact Steps.trans recorded (Moves.outward (.single .warmReset) (outward_linkHeld _ _))

theorem reaches_resetLineReleased : Reaches s (execResetLineReleased s) := by
  refine reaches_next ?_
  split
  · exact .refl
  · exact .of_outward (Outward.trans (t := { s with resetLine := .released }) ⟨rfl, rfl, rfl, rfl⟩ (outward_tryAlign _))

/-! ## Store clear -/

/-- A state with the tables of `State.reset` but for the line conditions, and its counters, parameters and readings. -/
theorem cleared_of_reset {t : State} (ps : Vector Port 48)
    (hp : t.tables = { State.reset.tables with ports := ps.map Port.cleared })
    (hc : t.counters = Counters.zero) (hq : t.params = Params.initial) (hs : t.sense = Sense.initial) : Cleared t := by
  have port (p : PortNo) : t.port p = Port.cleared (ps[p]) := by
    unfold State.port
    rw [show t.ports = ps.map Port.cleared from congrArg Tables.ports hp]
    simp
  have line (p : PortNo) : t.line p = LineRecord.initial := by
    unfold State.line
    rw [show t.lines = Vector.replicate 48 LineRecord.initial from congrArg Tables.lines hp]
    simp
  have slot (n : SlotNo) : t.slot n = Slot.initial := by
    unfold State.slot
    rw [show t.slots = Vector.replicate 15 Slot.initial from congrArg Tables.slots hp]
    simp
  have pool : t.pool = List.finRange 15 := congrArg Tables.pool hp
  constructor
  case ports => exact fun p => .inl (by rw [port, line]; exact ⟨rfl, fun _ => ⟨rfl, rfl⟩, rfl⟩)
  case status => exact fun p => by rw [line]; rfl
  case load => exact fun p => by rw [line]; decide
  case keyIndex =>
    intro p
    unfold State.indexKey
    rw [show t.keyIndex = Vector.replicate 48 none from congrArg Tables.keyIndex hp]
    simp
  case slots => exact fun n => by rw [slot]; decide
  case pool =>
    rw [pool]
    exact ⟨List.nodup_finRange 15, fun n => by rw [slot]; exact ⟨fun _ => rfl, fun _ => List.mem_finRange n⟩⟩
  case entries =>
    intro e
    unfold State.entry
    rw [show t.entries = Vector.replicate 15 Entry.initial from congrArg Tables.entries hp]
    simp [Entry.initial]
  case nextHandle => exact congrArg Tables.nextHandle hp
  case owq => exact congrArg Tables.owq hp
  case ringQueue => exact congrArg Tables.ringQueue hp
  case ringList => exact congrArg Tables.ringList hp
  case committed => exact congrArg Tables.committed hp
  case available => exact congrArg Tables.available hp
  case bus => exact congrArg Tables.bus hp
  case bounded =>
    refine Bounded.congr (s := State.reset) hc hq hs (congrArg Tables.available hp) ?_
    refine ⟨by decide, by decide, rfl, rfl⟩

theorem Cleared.outward {s t : State} (h : Cleared s) (o : Outward s t) : Cleared t where
  ports p := by rw [o.port, o.line]; exact h.ports p
  status p := by rw [o.line]; exact h.status p
  load p := by rw [o.line]; exact h.load p
  keyIndex p := by rw [State.indexKey_congr (congrArg Tables.keyIndex o.tables)]; exact h.keyIndex p
  slots n := by rw [o.slot]; exact h.slots n
  pool := by
    rw [show t.pool = s.pool from congrArg Tables.pool o.tables]
    exact ⟨h.pool.1, fun n => by rw [o.slot]; exact h.pool.2 n⟩
  entries e := by rw [o.entry]; exact h.entries e
  nextHandle := (congrArg Tables.nextHandle o.tables).trans h.nextHandle
  owq := (congrArg Tables.owq o.tables).trans h.owq
  ringQueue := (congrArg Tables.ringQueue o.tables).trans h.ringQueue
  ringList := (congrArg Tables.ringList o.tables).trans h.ringList
  committed := (congrArg Tables.committed o.tables).trans h.committed
  available := (congrArg Tables.available o.tables).trans h.available
  bus := (congrArg Tables.bus o.tables).trans h.bus
  bounded := o.bounded h.bounded

/-- A location that fails its test is put out of use (R187). -/
theorem Cleared.failLocation {s : State} (h : Cleared s) (i : SweepPos) : Cleared (s.failLocation i) := by
  unfold State.failLocation
  split
  · next p _ =>
    have line (r : PortNo) : ((s.setLine p { s.line p with withdrawn := true }).place p .quarantine).line r =
        if r = p then { s.line p with withdrawn := true } else s.line r := State.line_setLine s p r _
    have port (r : PortNo) : ((s.setLine p { s.line p with withdrawn := true }).place p .quarantine).port r =
        if r = p then (s.port p).place .quarantine else s.port r := State.port_setPort s p r _
    exact { h with
      ports := fun r => by
        rw [line, port]
        split
        · exact .inr ⟨place_sup _ _, rfl⟩
        · exact h.ports r
      status := fun r => by rw [line]; split <;> exact h.status _
      load := fun r => by rw [line]; split <;> exact h.load _ }
  · next n _ =>
    have slot (m : SlotNo) : (s.suspect n).slot m = if m = n then Slot.outOfService else s.slot m :=
      State.slot_setSlot (s.leavePool n) n m _
    exact { h with
      slots := fun m => by
        rw [slot]
        split
        · decide
        · exact h.slots m
      pool := by
        refine ⟨h.pool.1.filter _, fun m => ?_⟩
        rw [slot]
        show m ∈ s.pool.filter _ ↔ _
        split
        · next hm => simp [hm, Slot.outOfService]
        · next hm => simp [hm, h.pool.2 m] }
  · exact h

theorem reaches_powerOn (f : Framer) (r : ResetLine) : Reaches s (execPowerOn f r s) :=
  reaches_next (.single (.cleared (cleared_of_reset s.ports rfl rfl rfl rfl)))

theorem reaches_storeClearEnd (failed : List Nat) : Reaches s (execStoreClearEnd failed s) := by
  refine reaches_next ?_
  split
  · dsimp only
    have folded (l : List SweepPos) (t : State) (h : Cleared t) : Cleared (l.foldl State.failLocation t) := by
      induction l generalizing t with
      | nil => exact h
      | cons i l ih => exact ih _ (h.failLocation i)
    exact .single (.cleared ((folded _ _ (cleared_of_reset s.ports rfl rfl rfl rfl)).outward (outward_tryAlign _)))
  · exact .refl

/-! ## Every command, every step -/

theorem moves_discardFrame (s : State) : Moves s s.discardFrame :=
  .trans (Moves.of_outward (t := { s with assembly := [] }) ⟨rfl, rfl, rfl, rfl⟩)
    (moves_countBadFrame _)

theorem reaches_badFrame : Reaches s (execBadFrame s) := by
  refine reaches_next ?_
  split
  · exact moves_discardFrame s
  · exact .refl

/-- A message read from its frame is the message. -/
theorem runMessage_eq (i : Instr) (s : State) : runMessage i s = if isMessage i then exec i s else .next s := by
  cases i with
  | offer t a c => cases c <;> rfl
  | _ => rfl

theorem reaches_octetTaken (h : ∀ i t, isMessage i = true → Reaches t (exec i t)) (o : Nat) :
    Reaches s (execOctetTaken o s) := by
  unfold execOctetTaken
  have assembled (frame : List Nat) : Moves s { s with assembly := frame } := .of_outward ⟨rfl, rfl, rfl, rfl⟩
  split
  · split
    · split
      · exact reaches_next (assembled [o])
      · exact reaches_next (moves_discardFrame s)
    · dsimp only
      split
      · exact reaches_next (assembled _)
      · unfold State.completeFrame
        split
        · rw [runMessage_eq]
          split
          · next hm => exact fun t ht => (assembled []).trans (h _ _ hm t ht)
          · exact reaches_next (assembled [])
        · exact reaches_next (moves_discardFrame s)
  · exact reaches_next .refl

/-- Every message of the exchange is a run of moves. -/
theorem reaches_message (i : Instr) (s : State) (h : isMessage i = true) : Reaches s (exec i s) := by
  cases i with
  | offer t a c => exact reaches_offer t a c
  | grant t a => exact reaches_grant t a
  | deny t a => exact reaches_deny t a
  | answer t a => exact reaches_answer t a
  | clear t a c => exact reaches_clear t a c
  | cleared t a => exact reaches_cleared t a
  | meter t a n => exact reaches_meter t a n
  | blockSlot t n => exact reaches_blockSlot t n
  | unblockSlot t n => exact reaches_unblockSlot t n
  | testConnect t a f => exact reaches_testConnect t a f
  | testRelease t a => exact reaches_testRelease t a
  | writeLine t a w => exact reaches_writeLine t a w
  | readLine t a => exact reaches_readLine t a
  | ceaseLine t a => exact reaches_ceaseLine t a
  | clearRange t f l => exact reaches_clearRange t f l
  | setCursor t p => exact reaches_setCursor t p
  | setAdvance t w r d => exact reaches_setAdvance t w r d
  | setPrefix t v => exact reaches_setPrefix t v
  | setCadence t n ds => exact reaches_setCadence t n ds
  | readCadence t n => exact reaches_readCadence t n
  | setParam t p v => exact reaches_setParam t p v
  | readParam t => exact reaches_readParam t
  | queryLine t a => exact reaches_queryLine t a
  | querySlots t => exact reaches_querySlots t
  | readCounters t b => exact reaches_readCounters t b
  | resetCabinet t => exact reaches_resetCabinet t
  | badMessage t => exact reaches_badMessage t
  | _ => exact absurd h (by simp [isMessage, encodeBody])

/-- Every command is a run of moves. -/
theorem reaches_exec (i : Instr) (s : State) : Reaches s (exec i s) := by
  cases hm : isMessage i with
  | true => exact reaches_message i s hm
  | false =>
    cases i with
    | badFrame => exact reaches_badFrame
    | loopClosed p ms => exact reaches_loopClosed p ms
    | loopOpen p => exact reaches_loopOpen p
    | offHookDeclared p => exact reaches_offHookDeclared p
    | onHookDeclared p => exact reaches_onHookDeclared p
    | digitEnd p => exact reaches_digitEnd p
    | segmentEnd h => exact reaches_segmentEnd h
    | pulseEnd p => exact reaches_pulseEnd p
    | gapEnd p => exact reaches_gapEnd p
    | tAcceptExpiry h => exact reaches_tAcceptExpiry h
    | tRingwaitExpiry h => exact reaches_tRingwaitExpiry h
    | tRingmaxExpiry h => exact reaches_tRingmaxExpiry h
    | tReleaseExpiry h => exact reaches_tReleaseExpiry h
    | tWaitExpiry p => exact reaches_tWaitExpiry p
    | tTestExpiry => exact reaches_tTestExpiry
    | rangeStep => exact reaches_rangeStep
    | sweepStep => exact reaches_sweepStep
    | senseReading c v => exact reaches_senseReading c v
    | storageUpset l => exact reaches_storageUpset l
    | framerLost => exact reaches_framerLost
    | framerAligned => exact reaches_framerAligned
    | lossHoldExpiry => exact reaches_lossHoldExpiry
    | alignmentHoldExpiry => exact reaches_alignmentHoldExpiry
    | resetLineAsserted => exact reaches_resetLineAsserted
    | resetLineReleased => exact reaches_resetLineReleased
    | powerOn f r => exact reaches_powerOn f r
    | storeClearEnd failed => exact reaches_storeClearEnd failed
    | octetTaken o => exact reaches_octetTaken (fun i t h => reaches_message i t h) o
    | offer t a c => cases c <;> exact absurd hm (by simp [isMessage, encodeBody])
    | _ => exact absurd hm (by simp [isMessage, encodeBody])

/-- A millisecond touches nothing that the promises look at. -/
theorem moves_tick (s : State) : Moves s s.tick := by
  unfold State.tick
  split
  · exact moves_engine s _
  refine .single (.aside ?_ (.congr rfl rfl rfl rfl))
  have same := Alike.refl s
  have port (p : PortNo) : (s.ports.map Port.tick)[p] = (s.port p).tick := by simp [State.port]
  have entry (e : EntryNo) : (s.entries.map Entry.tick)[e] = (s.entry e).tick := by simp [State.entry]
  refine { same with sup := fun p => ?_, rests := fun p h hf => ?_, bindings := fun e => ?_, owq := ?_, ringList := ?_,
                     bus := ?_ }
  · have h := congrArg Port.sup (port p)
    exact h
  · have hq : (s.port p).sup.fed = false := by
      have same := congrArg (fun q : Port => q.sup.fed) (port p)
      exact same.symm.trans hf
    obtain ⟨hook, rest⟩ := h hq
    show (s.ports.map Port.tick)[p].hook = _ ∧ (s.ports.map Port.tick)[p].classifier = _
    rw [port]
    exact ⟨hook, by simp [Port.tick, rest, Classifier.tick]⟩
  · show ((s.entries.map Entry.tick)[e]).binding.map _ = _
    rw [entry]
    simp only [Entry.tick, Option.map_map]
    rfl
  · simp [Function.comp_def]
  · simp [Function.comp_def, RingEntry.ident]
  · simp [Function.comp_def]

/-- Every step is a run of moves. -/
theorem moves_step {t : State} (h : step s = .next t) : Moves s t := by
  unfold step at h
  split at h
  · next rest _ =>
    exact .trans (Moves.of_outward (t := { s with pending := rest }) ⟨rfl, rfl, rfl, rfl⟩) (reaches_exec _ _ t h)
  · split at h
    · exact .trans (Moves.of_outward (t := s.draw) ⟨rfl, rfl, rfl, rfl⟩) (reaches_exec _ _ t h)
    · cases h
      exact moves_tick s

end Sys2Proof.Machine
end

section
/-!
PROOFS. The counters, the parameters, the capacity and the band under every move.
-/
namespace Sys2Proof.Machine

open Sys2Proof.Safety

variable {s : State}

theorem still_unringing (s : State) (h : Nat) : (unringing s h).still = s.still := rfl

theorem counted_still {t : State} (h : t.counters = s.counters) (hs : t.still = s.still) : Bounded s → Bounded t :=
  .of_still hs (counted_congr h)

/-- The items from which A and the band follow, and A itself, stand as they stood (R121, R153). -/
structure SameLimits (s t : State) : Prop where
  params : t.params = s.params
  sense : t.sense = s.sense
  available : t.available = s.available

theorem SameLimits.of_still {t : State} (h : t.still = s.still) : SameLimits s t :=
  ⟨congrArg Still.params h, congrArg Still.sense h, congrArg Still.available h⟩

theorem SameLimits.trans {t u : State} (h : SameLimits s t) (k : SameLimits t u) : SameLimits s u :=
  ⟨k.params.trans h.params, k.sense.trans h.sense, k.available.trans h.available⟩

theorem SameLimits.bounded {t : State} (h : SameLimits s t) (hc : Counted t) (hb : Bounded s) : Bounded t := by
  obtain ⟨_, ordered, follows⟩ := hb
  refine ⟨hc, by unfold ParamsOrdered; rw [h.params]; exact ordered, ?_⟩
  unfold CapacityFollows State.capacity State.bandNow State.temperatureTaken State.batteryTaken at *
  rw [h.params, h.sense, h.available]
  exact follows

theorem sameLimits_freeBus (s : State) : SameLimits s s.freeBus := by
  unfold State.freeBus
  split
  · next h _ =>
    rw [disconnect_eq]
    have read : (s.readToPlace h.port).still = s.still := by
      unfold State.readToPlace
      split
      · exact still_lineActions s _
      · rfl
    exact .trans (.of_still read) ⟨rfl, rfl, rfl⟩
  · exact ⟨rfl, rfl, rfl⟩

theorem sameLimits_linkLoss (s : State) : SameLimits s s.linkLoss := by
  rw [linkLoss_eq]
  have down : SameLimits s { s with link := .down, lossHold := none, assembly := [] } := ⟨rfl, rfl, rfl⟩
  generalize ({ s with link := .down, lossHold := none, assembly := [] } : State) = u at down ⊢
  have retired : SameLimits u (u.retireAll true) := .of_still (still_retireAll u true)
  have emptied (v : State) : SameLimits v v.emptyQueue :=
    .trans (.of_still (still_foldl v (fun t (w : Waiting) => t.place w.port .lockout) (fun _ _ => rfl) v.owq)) ⟨rfl, rfl, rfl⟩
  have marked (v : State) : SameLimits v v.markWalk := by
    unfold State.markWalk
    split <;> exact ⟨rfl, rfl, rfl⟩
  have lost : SameLimits s u.loseCalls.markWalk := (((down.trans retired).trans (emptied _)).trans (sameLimits_freeBus _)).trans (marked _)
  generalize u.loseCalls.markWalk = v at lost
  exact ⟨lost.params, lost.sense, lost.available⟩

theorem sameLimits_warmReset (s : State) : SameLimits s s.warmReset := by
  have placed (v : State) : SameLimits v (allPorts.foldl State.resetPort v) :=
    .of_still (still_foldl v _ still_resetPort allPorts)
  have emptied (v : State) : SameLimits v (v.retireAll false).emptyEntries := .of_still (by simp)
  constructor
  · simp only [State.warmReset, State.silently, (placed _).params, (emptied _).params]
  · simp only [State.warmReset, State.silently, (placed _).sense, (emptied _).sense]
  · simp only [State.warmReset, State.silently, (placed _).available, (emptied _).available]

theorem counted_warmReset (s : State) : Counted s.warmReset := by
  have zero : s.warmReset.counters = Counters.zero := rfl
  simp [Counted, CountersBounded, zero, Counters.zero]

theorem still_retireSteps (s : State) (e : EntryNo) (b : Binding) : (s.retireSteps e b).still = s.still := by
  simp [State.retireSteps, still_leaveRinging]

theorem ceaseNow_limits (s : State) (p : PortNo) : (s.ceaseNow p).still = s.still ∧ (s.ceaseNow p).counters = s.counters := by
  unfold State.ceaseNow
  dsimp only
  split <;> exact ⟨rfl, rfl⟩

theorem ceaseWithdrawnCall_limits (s : State) (p : PortNo) :
    (s.ceaseWithdrawnCall p).still = s.still ∧ (s.ceaseWithdrawnCall p).counters = s.counters := by
  unfold State.ceaseWithdrawnCall
  dsimp only
  split
  · exact ⟨rfl, rfl⟩
  · split <;> exact ⟨rfl, rfl⟩

theorem placeWritten_limits (s : State) (p : PortNo) :
    (s.placeWritten p).still = s.still ∧ (s.placeWritten p).counters = s.counters := by
  unfold State.placeWritten
  dsimp only
  repeat' split
  all_goals exact ⟨rfl, rfl⟩

/-- Every move keeps the counters in range, the parameters in order, and A and the band as the readings give them. -/
theorem Bounded.move {t : State} (m : Move s t) (h : Bounded s) : Bounded t := by
  cases m with
  | aside _ hb => exact hb h
  | connect => exact counted_still rfl rfl h
  | pass _ _ _ hb => exact hb h
  | place => exact counted_still rfl rfl h
  | unqueue => exact counted_still rfl rfl h
  | join => exact counted_still rfl rfl h
  | bindIdle => exact .congr rfl rfl rfl rfl h
  | bindWaiting => exact .congr rfl rfl rfl rfl h
  | bindFull => exact counted_still rfl rfl h
  | offer => exact .congr rfl rfl rfl rfl h
  | answer => exact counted_still rfl rfl h
  | clear => exact counted_still rfl rfl h
  | clearTest => exact .congr rfl rfl rfl rfl h
  | lineLost p => exact .of_still (by simp) (counted_quarantine _ p) h
  | lineCleared => exact .of_still (by simp [still_unringing]) (counted_quarantine _ _) h
  | lineFailed => exact .of_still (by simp) (counted_lineActions _ _) h
  | requarantine p => exact .of_still (by simp) (counted_quarantine _ p) h
  | bindingActions => exact .of_still (by simp) (counted_bindingActions _ _ _) h
  | slotActions => exact .of_still (by simp) (counted_slotActions _ _) h
  | suspect => exact counted_still rfl rfl h
  | retireSteps => exact .of_still (still_retireSteps _ _ _) (counted_retireSteps _ _ _) h
  | ceaseNow => exact counted_still (ceaseNow_limits _ _).2 (ceaseNow_limits _ _).1 h
  | ceaseWithdrawnCall => exact counted_still (ceaseWithdrawnCall_limits _ _).2 (ceaseWithdrawnCall_limits _ _).1 h
  | ceasing => exact counted_still rfl rfl h
  | writeService => exact counted_still (placeWritten_limits _ _).2 (placeWritten_limits _ _).1 h
  | release => exact .congr rfl rfl rfl rfl h
  | connectIdle => exact .congr rfl rfl rfl rfl h
  | blockFree => exact counted_still rfl rfl h
  | blockSuspect => exact counted_still rfl rfl h
  | freeSlot => exact counted_still rfl rfl h
  | linkLoss => exact (sameLimits_linkLoss s).bounded (counted_linkLoss _ h.1) h
  | warmReset => exact (sameLimits_warmReset s).bounded (counted_warmReset s) h
  | cleared h => exact h.bounded

end Sys2Proof.Machine
end

section
/-!
PROOFS. Between two events no message waits for a reply (log entry 14), with it BoundsAreKept.
-/
namespace Sys2Proof.Machine

open Sys2Proof.Safety

variable {s : State}

/-! ## Operations that leave nothing waiting -/

theorem quiet_out {t : State} (h : t.out = s.out) (hq : Quiet s) : Quiet t := by rw [Quiet, h]; exact hq

theorem quiet_release (s : State) : Quiet s.release := ⟨rfl, rfl⟩

theorem quiet_reply (s : State) (m : Message) : Quiet (s.reply m) := quiet_release _

theorem quiet_send (m : Message) (hq : Quiet s) : Quiet (s.send m) := by
  unfold State.send
  rw [hq.2]
  split
  · exact hq
  · exact hq

theorem quiet_sendNow (m : Message) (hq : Quiet s) : Quiet (s.sendNow m) := by
  unfold State.sendNow
  split
  · exact hq
  · exact hq

/-- The reports of a failure that no reply waits for leave at its end (R178). -/
theorem quiet_reporting (own : List Message) (f : State → State) (hq : Quiet s) : Quiet (s.reporting own f) := by
  unfold State.reporting
  rw [hq.2]
  exact quiet_release _

theorem quiet_foldl {α : Type} (f : State → α → State) (h : ∀ t a, Quiet t → Quiet (f t a)) (xs : List α) {s : State}
    (hq : Quiet s) : Quiet (xs.foldl f s) := by
  induction xs generalizing s with
  | nil => exact hq
  | cons x xs ih => exact ih (h s x hq)

theorem quiet_settle (p : PortNo) (hq : Quiet s) : Quiet (s.settle p) := by
  unfold State.settle
  split <;> exact hq

theorem quiet_quarantine (p : PortNo) (hq : Quiet s) : Quiet (s.quarantine p) := by
  unfold State.quarantine
  split <;> exact hq

theorem quiet_leaveRinging {after : State → State} (h : Nat) (ha : ∀ t, Quiet t → Quiet (after t)) (hq : Quiet s) :
    Quiet (s.leaveRinging after h) := by
  by_cases hn : NotRinging s h
  · rw [leaveRinging_none _ hn]
    exact hq
  · rw [leaveRinging_some _ hn]
    exact ha _ hq

theorem quiet_failEntry (after : State → State) (outer : Nat → List Message) (e : EntryNo) (hq : Quiet s) :
    Quiet (s.failEntry after outer e) := by
  unfold State.failEntry
  dsimp only
  split
  · exact quiet_reporting _ _ hq
  · split
    · exact quiet_reporting _ _ hq
    · exact quiet_reporting _ _ (quiet_sendNow _ hq)

theorem quiet_shedStep (fuel : Nat) (hq : Quiet s) : Quiet (s.shedStep fuel) := by
  induction fuel generalizing s with
  | zero => exact hq
  | succ fuel ih =>
    unfold State.shedStep
    split
    · split
      · refine ih ?_
        unfold State.shedTail
        split
        · exact hq
        · split
          · exact quiet_failEntry _ _ _ hq
          · exact hq
      · exact hq
    · exact hq

theorem quiet_admitStep (fuel : Nat) (hq : Quiet s) : Quiet (s.admitStep fuel) := by
  induction fuel generalizing s with
  | zero => exact hq
  | succ fuel ih =>
    unfold State.admitStep
    split
    · split
      · refine ih ?_
        unfold State.startHead
        split
        · exact hq
        · split
          · exact quiet_failEntry _ _ _ hq
          · exact hq
      · exact hq
    · exact hq

theorem quiet_budgetPass (hq : Quiet s) : Quiet s.budgetPass := quiet_admitStep _ (quiet_shedStep _ hq)

theorem quiet_enterClearing (e : EntryNo) (b : Binding) (c : Cause) {move : State → State}
    (hm : ∀ t, Quiet t → Quiet (move t)) (hq : Quiet s) : Quiet (s.enterClearing e b c move) :=
  quiet_leaveRinging b.handle (fun _ => quiet_budgetPass) (hm _ (quiet_sendNow _ hq))

theorem quiet_lineActions (p : PortNo) (hq : Quiet s) : Quiet (s.lineActions p) := by
  unfold State.lineActions
  dsimp only
  split
  · split
    · exact quiet_reporting _ _ hq
    · split
      · exact quiet_quarantine _ (quiet_failEntry _ _ _ hq)
      · exact quiet_reporting _ _ (quiet_sendNow _ hq)
  · exact quiet_reporting _ _ hq

theorem quiet_slotActions (n : SlotNo) (hq : Quiet s) : Quiet (s.slotActions n) := by
  unfold State.slotActions
  dsimp only
  split
  · exact quiet_reporting _ _ hq
  · split
    · exact quiet_reporting _ _ hq
    · exact quiet_reporting _ _ (quiet_sendNow _ hq)

theorem quiet_suspectAtUse (n : SlotNo) (h : Nat) (hq : Quiet s) : Quiet (s.suspectAtUse n h) := quiet_reporting _ _ hq

theorem quiet_allocate (c : LineClass) (fuel : Nat) (hq : Quiet s) : Quiet (s.allocate c fuel).1 := by
  induction fuel generalizing s with
  | zero => exact hq
  | succ fuel ih =>
    unfold State.allocate
    split
    · split
      · split
        · exact ih (quiet_suspectAtUse _ _ hq)
        · exact hq
      · exact hq
    · exact hq

theorem quiet_seize (p : PortNo) (n : SlotNo) (hq : Quiet s) : Quiet (s.seize p n) := by
  unfold State.seize State.create
  dsimp only
  split
  · exact hq
  · exact quiet_send _ hq

theorem quiet_serviceScan (fuel : Nat) (ps : List PortNo) (hq : Quiet s) : Quiet (s.serviceScan fuel ps) := by
  induction fuel generalizing s ps with
  | zero => exact hq
  | succ fuel ih =>
    cases ps with
    | nil => exact hq
    | cons p rest =>
      unfold State.serviceScan
      split
      · exact hq
      split
      · exact ih rest hq
      split
      · exact ih rest hq
      split
      · exact ih rest hq
      split
      · exact ih rest hq
      split
      · exact ih rest (quiet_lineActions p hq)
      have allocated := quiet_allocate (s.line p).cls (s.pool.length + 1) hq
      split
      · next t ha =>
        rw [State.admitSlot] at ha
        rw [ha] at allocated
        exact ih rest allocated
      · next t n ha =>
        rw [State.admitSlot] at ha
        rw [ha] at allocated
        exact ih _ (quiet_seize p n (quiet_out (s := t) rfl allocated))

theorem quiet_serviceIf (b : Bool) (hq : Quiet s) : Quiet (s.serviceIf b) := by
  unfold State.serviceIf
  split
  · exact quiet_serviceScan _ _ hq
  · exact hq

theorem quiet_bindingFailure (e : EntryNo) (hq : Quiet s) : Quiet (s.bindingFailure e) :=
  quiet_serviceIf _ (quiet_failEntry _ _ _ hq)

theorem quiet_slotFailure (n : SlotNo) (hq : Quiet s) : Quiet (s.slotFailure n) :=
  quiet_serviceIf _ (quiet_slotActions n hq)

theorem quiet_lineActionsRetiring (p : PortNo) (h : Nat) (hq : Quiet s) : Quiet (s.lineActionsRetiring p h) :=
  quiet_reporting _ _ hq

theorem quiet_completeCease (p : PortNo) (h : Nat) (hq : Quiet s) : Quiet (s.completeCease p h) := by
  unfold State.completeCease
  dsimp only
  split
  · split
    · exact quiet_lineActionsRetiring _ _ hq
    · refine quiet_send _ ?_
      split <;> exact hq
  · exact hq

theorem quiet_fold (b : Binding) (hq : Quiet s) : Quiet (s.fold b) := by
  unfold State.fold
  dsimp only
  split
  · exact hq
  · split
    · exact quiet_lineActionsRetiring _ _ hq
    · exact hq

theorem quiet_returnSlot (b : Binding) (hq : Quiet s) : Quiet (s.returnSlot b) := by
  unfold State.returnSlot
  split
  · exact quiet_suspectAtUse _ _ hq
  · unfold State.returnGoodSlot
    split <;> exact hq

theorem quiet_retire (e : EntryNo) (b : Binding) (hq : Quiet s) : Quiet (s.retire e b) := by
  unfold State.retire
  dsimp only
  have folded : Quiet (((s.leaveRinging State.budgetPass b.handle).fold b).stopInjector b.port) :=
    quiet_out (s := (s.leaveRinging State.budgetPass b.handle).fold b) rfl
      (quiet_fold b (quiet_leaveRinging _ (fun _ => quiet_budgetPass) hq))
  have emptied (t : State) (h : Quiet t) : Quiet (t.writeEntry e none) := h
  exact quiet_serviceIf _ (quiet_completeCease _ _ (quiet_settle _ (emptied _ (quiet_returnSlot b folded))))

theorem quiet_onExpiry (h : Nat) (runs : Binding → Bool) {take : EntryNo → Binding → State → State}
    (ht : ∀ e b t, Quiet t → Quiet (take e b t)) (hq : Quiet s) : Quiet (s.onExpiry h runs take) := by
  unfold State.onExpiry
  split
  · exact hq
  · split
    · split
      · exact quiet_bindingFailure _ hq
      · exact ht _ _ s hq
    · exact hq

/-! ## Readings -/

theorem quiet_enterPower (after : PowerState) (hq : Quiet s) : Quiet (s.enterPower after) := by
  unfold State.enterPower
  dsimp only
  split
  · refine quiet_foldl _ (fun t p ht => ?_) _ hq
    unfold State.parkPort
    split
    · exact ht
    split
    · exact quiet_lineActions p ht
    split
    · split <;> exact ht
    · exact ht
  split
  · refine quiet_foldl _ (fun t p ht => ?_) _ hq
    unfold State.unparkPort
    dsimp only
    split <;> exact ht
  · exact hq

theorem quiet_reportPower (q : Sense) (hq : Quiet s) : Quiet (s.reportPower q) := by
  unfold State.reportPower
  split
  · exact hq
  · exact quiet_send _ hq

theorem quiet_validStep (c : Channel) (v : Int) (hq : Quiet s) : Quiet (s.validStep c v) := by
  unfold State.validStep
  dsimp only
  generalize (s.sense.setHeld c v).setFault c 0 false = q
  refine quiet_reportPower _ ?_
  have told : Quiet (if s.sense.fault c then ({ s with sense := q } : State).send (.sense c .ok)
      else { s with sense := q }) := by
    split
    · exact quiet_send _ hq
    · exact hq
  generalize (if s.sense.fault c then ({ s with sense := q } : State).send (.sense c .ok)
      else { s with sense := q }) = t at told ⊢
  have passed : Quiet t.recompute := quiet_budgetPass (s := { t with available := t.capacity }) told
  cases c with
  | battery => exact quiet_enterPower _ passed
  | temperature => exact passed

theorem quiet_invalidStep (c : Channel) (hq : Quiet s) : Quiet (s.invalidStep c) := by
  unfold State.invalidStep
  dsimp only
  split
  · exact quiet_send _ hq
  · exact hq

/-! ## The line side -/

theorem quiet_deliver (p : PortNo) (d : Dialled) (hq : Quiet s) : Quiet (s.deliver p d) := by
  unfold State.deliver
  split
  · split
    · exact hq
    · split
      · split
        · exact quiet_bindingFailure _ hq
        · unfold State.appendEarly
          split <;> exact hq
      · split
        · exact quiet_bindingFailure _ hq
        · exact quiet_send _ hq
      · split
        · exact quiet_bindingFailure _ hq
        · exact quiet_send _ hq
      · exact hq
  · exact hq

theorem quiet_flash (p : PortNo) (hq : Quiet s) : Quiet (s.flash p) := by
  have counted : Quiet (s.clearCount p) := hq
  unfold State.flash
  dsimp only
  split
  · exact quiet_deliver p _ (quiet_deliver p _ counted)
  · exact quiet_deliver p _ counted

theorem quiet_originate (p : PortNo) (hq : Quiet s) : Quiet (s.originate p) := by
  unfold State.originate
  split
  · exact quiet_quarantine p hq
  split
  · exact quiet_lineActions p hq
  split
  · exact hq
  split
  · exact hq
  split
  · exact hq
  have allocated := quiet_allocate (s.line p).cls (s.pool.length + 1) hq
  split
  · next t ha =>
    rw [State.admitSlot] at ha
    rw [ha] at allocated
    exact allocated
  · next t n ha =>
    rw [State.admitSlot] at ha
    rw [ha] at allocated
    exact quiet_seize p n allocated

theorem quiet_answerRing (e : EntryNo) (b : Binding) (hq : Quiet s) : Quiet (s.answerRing e b) := by
  have told : Quiet (s.send (.answered b.handle)) := quiet_send _ hq
  unfold State.answerRing
  dsimp only
  exact quiet_leaveRinging _ (fun _ => quiet_budgetPass) (quiet_out (s := s.send (.answered b.handle)) rfl told)

theorem quiet_offHookBound (p : PortNo) (hq : Quiet s) : Quiet (s.offHookBound p) := by
  have answered (e : EntryNo) (b : Binding) :
      Quiet (if (s.entry e).damaged then s.bindingFailure e else s.answerRing e b) := by
    split
    · exact quiet_bindingFailure e hq
    · exact quiet_answerRing e b hq
  unfold State.offHookBound
  split
  · exact hq
  · split
    · exact answered _ _
    · exact answered _ _
    · exact hq

theorem quiet_offHook (p : PortNo) (hq : Quiet s) : Quiet (s.offHook p) := by
  unfold State.offHook
  dsimp only
  split
  · exact quiet_originate p hq
  · exact quiet_offHookBound p hq
  · exact hq

theorem quiet_onHookBound (p : PortNo) (hq : Quiet s) : Quiet (s.onHookBound p) := by
  have cleared (e : EntryNo) (b : Binding) :
      Quiet (if (s.entry e).damaged then s.bindingFailure e else s.enterClearing e b .lineClear fun t => t.toIdle p) := by
    split
    · exact quiet_bindingFailure e hq
    · exact quiet_enterClearing e b _ (fun _ h => h) hq
  unfold State.onHookBound
  split
  · exact hq
  · split
    · exact cleared _ _
    · exact cleared _ _
    · exact cleared _ _
    · exact hq

theorem quiet_onHook (p : PortNo) (hq : Quiet s) : Quiet (s.onHook p) := by
  unfold State.onHook
  dsimp only
  split
  · exact quiet_onHookBound p hq
  · exact hq
  · exact hq
  · exact hq

theorem quiet_closeLoop (p : PortNo) (ms : Nat) (hq : Quiet s) : Quiet (s.closeLoop p ms) := by
  unfold State.closeLoop
  dsimp only
  split
  · split
    · exact hq
    split
    · exact hq
    split
    · exact quiet_flash p hq
    · have hung := quiet_onHook p hq
      split <;> exact hung
  · split <;> exact hq
  · exact hq

/-! ## Link, reset, store clear -/

theorem quiet_sendRestart (c : RestartCause) (n : Nat) (hq : Quiet s) : Quiet (s.sendRestart c n) := by
  have sent := quiet_send s.powerReport (quiet_send (.restart c n) hq)
  unfold State.sendRestart
  dsimp only
  split
  · split
    · exact quiet_send _ (quiet_send _ sent)
    · exact quiet_send _ sent
  · split
    · exact quiet_send _ sent
    · exact sent

theorem quiet_tryAlign (hq : Quiet s) : Quiet s.tryAlign := by
  unfold State.tryAlign
  split <;> exact hq

theorem warmReset_out (s : State) : s.warmReset.out = s.out := by simp only [State.warmReset, State.silently]

theorem linkLoss_out (s : State) : s.linkLoss.out = s.out := by simp only [State.linkLoss, State.silently]

theorem quiet_warmReset (hq : Quiet s) : Quiet s.warmReset := quiet_out (warmReset_out s) hq

theorem quiet_linkLoss (hq : Quiet s) : Quiet s.linkLoss := quiet_out (linkLoss_out s) hq

theorem quiet_failLocation (i : SweepPos) (hq : Quiet s) : Quiet (s.failLocation i) := by
  unfold State.failLocation
  split <;> exact hq

/-! ## Events -/

/-- What a command leaves is again quiet. -/
def Quiets (r : Result) : Prop := ∀ t, r = .next t → Quiet t

theorem quiets_next {t : State} (h : Quiet t) : Quiets (.next t) := fun _ e => by cases e; exact h

theorem quiets_takeMessage (f : State → State) (hq : Quiet s) : Quiets (s.takeMessage f) := by
  refine quiets_next ?_
  split
  · exact quiet_release _
  · exact hq

/-- RESET_CABINET apart, every message of the exchange is taken in one way (R189). -/
theorem message_taken {i : Instr} (h : isMessage i = true) :
    (∃ tag, i = .resetCabinet tag) ∨ ∃ f, ∀ s, exec i s = s.takeMessage f := by
  cases i with
  | resetCabinet tag => exact .inl ⟨tag, rfl⟩
  | offer t a c => exact .inr ⟨_, fun s => show execOffer t a c s = _ from rfl⟩
  | grant t a => exact .inr ⟨_, fun s => show execGrant t a s = _ from rfl⟩
  | deny t a => exact .inr ⟨_, fun s => show execDeny t a s = _ from rfl⟩
  | answer t a => exact .inr ⟨_, fun s => show execAnswer t a s = _ from rfl⟩
  | clear t a c => exact .inr ⟨_, fun s => show execClear t a c s = _ from rfl⟩
  | cleared t a => exact .inr ⟨_, fun s => show execCleared t a s = _ from rfl⟩
  | meter t a n => exact .inr ⟨_, fun s => show execMeter t a n s = _ from rfl⟩
  | blockSlot t n => exact .inr ⟨_, fun s => show execBlockSlot t n s = _ from rfl⟩
  | unblockSlot t n => exact .inr ⟨_, fun s => show execUnblockSlot t n s = _ from rfl⟩
  | testConnect t a f => exact .inr ⟨_, fun s => show execTestConnect t a f s = _ from rfl⟩
  | testRelease t a => exact .inr ⟨_, fun s => show execTestRelease t a s = _ from rfl⟩
  | writeLine t a w => exact .inr ⟨_, fun s => show execWriteLine t a w s = _ from rfl⟩
  | readLine t a => exact .inr ⟨_, fun s => show execReadLine t a s = _ from rfl⟩
  | ceaseLine t a => exact .inr ⟨_, fun s => show execCeaseLine t a s = _ from rfl⟩
  | clearRange t f l => exact .inr ⟨_, fun s => show execClearRange t f l s = _ from rfl⟩
  | setCursor t p => exact .inr ⟨_, fun s => show execSetCursor t p s = _ from rfl⟩
  | setAdvance t w r d => exact .inr ⟨_, fun s => show execSetAdvance t w r d s = _ from rfl⟩
  | setPrefix t v => exact .inr ⟨_, fun s => show execSetPrefix t v s = _ from rfl⟩
  | setCadence t n ds => exact .inr ⟨_, fun s => show execSetCadence t n ds s = _ from rfl⟩
  | readCadence t n => exact .inr ⟨_, fun s => show execReadCadence t n s = _ from rfl⟩
  | setParam t p v => exact .inr ⟨_, fun s => show execSetParam t p v s = _ from rfl⟩
  | readParam t => exact .inr ⟨_, fun s => show execReadParam t s = _ from rfl⟩
  | queryLine t a => exact .inr ⟨_, fun s => show execQueryLine t a s = _ from rfl⟩
  | querySlots t => exact .inr ⟨_, fun s => show execQuerySlots t s = _ from rfl⟩
  | readCounters t b => exact .inr ⟨_, fun s => show execReadCounters t b s = _ from rfl⟩
  | badMessage t => exact .inr ⟨_, fun s => show execBadMessage t s = _ from rfl⟩
  | _ => exact absurd h (by simp [isMessage, encodeBody])

theorem quiets_message {i : Instr} (h : isMessage i = true) (hq : Quiet s) : Quiets (exec i s) := by
  obtain ⟨tag, rfl⟩ | ⟨f, hf⟩ := message_taken h
  · refine quiets_next ?_
    split
    · have reset : Quiet (s.ack tag .ok).warmReset := quiet_warmReset (quiet_reply s _)
      dsimp only
      generalize (s.ack tag .ok).warmReset = t at reset ⊢
      exact quiet_sendRestart _ _ reset
    · exact hq
  · rw [hf]
    exact quiets_takeMessage f hq

theorem quiets_octetTaken (o : Nat) (hq : Quiet s) : Quiets (execOctetTaken o s) := by
  unfold execOctetTaken
  split
  · split
    · split
      · exact quiets_next hq
      · exact quiets_next hq
    · dsimp only
      split
      · exact quiets_next hq
      · unfold State.completeFrame
        split
        · rw [runMessage_eq]
          split
          · next hm => exact quiets_message (s := { s with assembly := [] }) hm hq
          · exact quiets_next hq
        · exact quiets_next hq
  · exact quiets_next hq

theorem quiet_endWalk (w : RangeWalk) (m : Message) (s : State) : Quiet (s.endWalk w m) := by
  unfold State.endWalk
  dsimp only
  split
  · exact quiet_release _
  · exact quiet_reply _ _

theorem quiets_rangeStep (hq : Quiet s) : Quiets (execRangeStep s) := by
  refine quiets_next ?_
  split
  · split
    · exact quiet_endWalk _ _ _
    · dsimp only
      split
      · exact quiet_endWalk _ _ _
      · exact quiet_release _
  · exact hq

theorem quiets_sweepStep (hq : Quiet s) : Quiets (execSweepStep s) := by
  refine quiets_next ?_
  split
  · exact hq
  have moved : Quiet { s with sweepPos := s.sweepPos + 1, sweepLeft := sweepStepMs } := hq
  unfold State.sweepRead
  split
  · split
    · exact quiet_lineActions _ moved
    · exact moved
  · split
    · exact quiet_slotFailure _ moved
    · exact moved
  · split
    · exact quiet_bindingFailure _ moved
    · exact moved

theorem quiets_gapEnd (p : PortNo) (hq : Quiet s) : Quiets (execGapEnd p s) := by
  refine quiets_next ?_
  split
  · split
    · unfold State.endGap
      dsimp only
      split
      · split
        · exact quiet_bindingFailure _ hq
        · unfold State.startTrain
          split
          · split <;> exact hq
          · exact hq
      · exact hq
    · exact hq
  · exact hq

theorem quiets_loopOpen (p : PortNo) (hq : Quiet s) : Quiets (execLoopOpen p s) := by
  refine quiets_next ?_
  split
  · dsimp only
    split
    · split <;> exact hq
    · exact hq
  · exact hq

theorem quiets_loopClosed (p : PortNo) (ms : Nat) (hq : Quiet s) : Quiets (execLoopClosed p ms s) := by
  refine quiets_next ?_
  split
  · exact hq
  dsimp only
  split
  · exact quiet_closeLoop p ms hq
  · exact hq

theorem quiets_digitEnd (p : PortNo) (hq : Quiet s) : Quiets (execDigitEnd p s) := by
  refine quiets_next ?_
  split
  · split
    · exact hq
    · exact quiet_deliver p _ hq
  · exact hq

theorem quiets_senseReading (c : Channel) (v : Option Int) (hq : Quiet s) : Quiets (execSenseReading c v s) := by
  refine quiets_next ?_
  split
  · exact hq
  split
  · split
    · exact quiet_validStep c _ hq
    · exact quiet_invalidStep c hq
  · exact quiet_invalidStep c hq

theorem quiets_storeClearEnd (failed : List Nat) (hq : Quiet s) : Quiets (execStoreClearEnd failed s) := by
  refine quiets_next ?_
  split
  · exact quiet_tryAlign (quiet_foldl _ (fun _ i h => quiet_failLocation i h) _ hq)
  · exact hq

/-- Every command leaves nothing waiting for a reply. -/
theorem quiets_exec (i : Instr) (hq : Quiet s) : Quiets (exec i s) := by
  cases hm : isMessage i with
  | true => exact quiets_message hm hq
  | false =>
    cases i with
    | badFrame => exact quiets_next (by split <;> exact hq)
    | loopClosed p ms => exact quiets_loopClosed p ms hq
    | loopOpen p => exact quiets_loopOpen p hq
    | offHookDeclared p =>
      refine quiets_next ?_
      split
      · exact quiet_offHook p hq
      · exact hq
    | onHookDeclared p =>
      refine quiets_next ?_
      split
      · exact quiet_onHook p hq
      · exact hq
    | digitEnd p => exact quiets_digitEnd p hq
    | segmentEnd h => exact quiets_next hq
    | pulseEnd p => exact quiets_next (by split <;> exact hq)
    | gapEnd p => exact quiets_gapEnd p hq
    | tAcceptExpiry h =>
      exact quiets_next (quiet_onExpiry h _ (fun e b _ => quiet_enterClearing e b _ fun _ ht => ht) hq)
    | tRingwaitExpiry h =>
      exact quiets_next (quiet_onExpiry h _ (fun e b _ ht => quiet_enterClearing e b _ (fun _ hu => hu) ht) hq)
    | tRingmaxExpiry h =>
      exact quiets_next (quiet_onExpiry h _ (fun e b _ => quiet_enterClearing e b _ fun _ ht => ht) hq)
    | tReleaseExpiry h => exact quiets_next (quiet_onExpiry h _ (fun e b _ ht => quiet_retire e b ht) hq)
    | tWaitExpiry p => exact quiets_next (by split <;> exact hq)
    | tTestExpiry =>
      refine quiets_next ?_
      split
      · exact hq
      · exact quiet_reply _ _
    | rangeStep => exact quiets_rangeStep hq
    | sweepStep => exact quiets_sweepStep hq
    | senseReading c v => exact quiets_senseReading c v hq
    | storageUpset l => exact quiets_next (by split <;> exact hq)
    | framerLost =>
      refine quiets_next ?_
      split
      · exact hq
      · dsimp only
        split <;> exact hq
    | framerAligned =>
      refine quiets_next ?_
      split
      · exact hq
      · dsimp only
        split
        · exact hq
        · exact hq
        · exact quiet_tryAlign hq
    | lossHoldExpiry =>
      refine quiets_next ?_
      split
      · exact quiet_linkLoss hq
      · exact hq
    | alignmentHoldExpiry =>
      refine quiets_next ?_
      split
      · exact quiet_sendRestart _ _ hq
      · exact hq
    | resetLineAsserted =>
      refine quiets_next ?_
      split
      · exact hq
      · dsimp only
        split
        · exact hq
        · exact quiet_out (warmReset_out { s with resetLine := .asserted }) hq
    | resetLineReleased =>
      refine quiets_next ?_
      split
      · exact hq
      · exact quiet_tryAlign hq
    | powerOn f r => exact quiets_next hq
    | storeClearEnd failed => exact quiets_storeClearEnd failed hq
    | octetTaken o => exact quiets_octetTaken o hq
    | offer t a c => cases c <;> exact absurd hm (by simp [isMessage, encodeBody])
    | _ => exact absurd hm (by simp [isMessage, encodeBody])

theorem quiet_step {t : State} (hq : Quiet s) (h : step s = .next t) : Quiet t := by
  unfold step at h
  split at h
  · next rest _ => exact quiets_exec (s := { s with pending := rest }) _ hq t h
  · split at h
    · exact quiets_exec (s := s.draw) _ hq t h
    · cases h
      unfold State.tick
      split <;> exact hq

/-- Settles O55: a step is a run of moves, each of which keeps the counters, the parameters, the capacity and the band;
and it ends with its replies sent. -/
theorem boundsAreKept : Obligations.BoundsAreKept := by
  intro s t quiet ordered counted follows h
  obtain ⟨counted', ordered', follows'⟩ := Moves.keeps Bounded.move (moves_step h) ⟨counted, ordered, follows⟩
  exact ⟨quiet_step quiet h, ordered', counted', follows'⟩

end Sys2Proof.Machine
end

section
/-!
PROOFS. The moves that hold failures and budget passes, cut further: between their parts a promise may be open for the
entries of the calls that are being ended, and for the port of a record that has just been withdrawn.
-/
namespace Sys2Proof.Machine

open Sys2Proof.Safety

variable {s : State}

/-- A state inside a move: the entries whose calls are being ended, and the ports whose quarantine is still to come. -/
structure Stage where
  leaving : List EntryNo
  withdrawing : List PortNo
  state : State

/-- What becomes of the slot of a call that ends (R52, R60). -/
inductive SlotEnd (s : State) (n : SlotNo) : State → Prop
  | suspect : SlotEnd s n (s.suspect n)
  | free : SlotEnd s n (s.freeSlot n)
  | block : SlotEnd s n (s.blockSlot n)

/-- The entry of a call is emptied and its port settled (R45, R89). -/
def State.endCall (s : State) (e : EntryNo) (b : Binding) : State := (s.writeEntry e none).settle b.port

/-- The last of the ringing list goes to the head of the ring queue (R126). -/
def State.shed (s : State) (r : RingEntry) (e : EntryNo) (b : Binding) : State :=
  let t := s.dropRinging r.handle
  let u := { t with
    ringQueue := { handle := r.handle, port := r.port, cadence := r.cadence, load := r.load } :: t.ringQueue
    counters := { t.counters with ringSheds := bump t.counters.ringSheds } }
  u.writeEntry e (some { b with phase := .ringWait, tRingwait := some (s.params.tRingwait * secondMs) })

/-- The head of the ring queue joins the ringing list (R128). -/
def State.startRing (s : State) (q : QueueEntry) (e : EntryNo) (b : Binding) : State :=
  let t := s.dropQueued q.handle
  let u := { t with
    ringList := t.ringList ++
      [({ handle := q.handle, port := q.port, cadence := q.cadence, load := q.load, segment := 0,
          left := s.segmentMs q.cadence 0 } : RingEntry)]
    committed := t.committed + q.load }
  u.writeEntry e (some { b with phase := .ringing, tRingwait := none })

/-- The parts of a budget pass, of a failure and of a retirement. -/
inductive Part : Stage → Stage → Prop
  | aside {X W} {s t : State} (h : Alike s t) : Part ⟨X, W, s⟩ ⟨X, W, t⟩
  /-- A call begins to end: its handle leaves the ringing lists (R95, R181). -/
  | leave {X W} {s : State} {e : EntryNo} {b : Binding} (h : (s.entry e).binding = some b) :
      Part ⟨X, W, s⟩ ⟨e :: X, W, unringing s b.handle⟩
  /-- The same for the call of a slot found damaged (R183). -/
  | leaveSlot {X W} {s : State} {n : SlotNo} {e : EntryNo} {b : Binding} (hn : (s.slot n).state = .bound)
      (h : s.byHandle (s.slot n).handle = some (e, b)) :
      Part ⟨X, W, s⟩ ⟨e :: X, W, unringing (s.suspect n) b.handle⟩
  /-- A slot found damaged outside a call (R183). -/
  | slotLost {X W} {s : State} {n : SlotNo} (h : (s.slot n).state = .bound → s.byHandle (s.slot n).handle = none) :
      Part ⟨X, W, s⟩ ⟨X, W, s.suspect n⟩
  | dropRinging {X W} {s : State} {k : Nat} (h : s.byHandle k = none) : Part ⟨X, W, s⟩ ⟨X, W, s.dropRinging k⟩
  | dropQueued {X W} {s : State} {k : Nat} (h : s.byHandle k = none) : Part ⟨X, W, s⟩ ⟨X, W, s.dropQueued k⟩
  | shed {X W} {s : State} {r : RingEntry} {e : EntryNo} {b : Binding} (hr : s.ringList.getLast? = some r)
      (h : s.byHandle r.handle = some (e, b)) : Part ⟨X, W, s⟩ ⟨X, W, s.shed r e b⟩
  | startRing {X W} {s : State} {q : QueueEntry} {qs : List QueueEntry} {e : EntryNo} {b : Binding}
      (hq : s.ringQueue = q :: qs) (h : s.byHandle q.handle = some (e, b)) (hs : s.mayStart q = true) :
      Part ⟨X, W, s⟩ ⟨X, W, s.startRing q e b⟩
  /-- The slot, the entry and the port of a call that ends. -/
  | endCall {X W} {s t : State} {e : EntryNo} {b : Binding} (h : (s.entry e).binding = some b)
      (ht : SlotEnd s b.slot t) : Part ⟨e :: X, W, s⟩ ⟨X, W, t.endCall e b⟩
  /-- A line record found damaged, its port without a call or its call being ended (R144, R179). -/
  | lineLost {X W} {s : State} {p : PortNo}
      (h : (s.port p).sup ≠ .bound ∨ ∃ e ∈ X, ∃ b, (s.entry e).binding = some b ∧ b.port = p) :
      Part ⟨X, W, s⟩ ⟨X, W, (s.withdraw p).quarantine p⟩
  /-- A deferred cease completes (R15). -/
  | ceased {X W} {s : State} {p : PortNo} (total : Nat) (hc : Ceasing s p) (h : (s.port p).sup ≠ .bound) :
      Part ⟨X, W, s⟩ ⟨X, W, ceased s p total⟩
  /-- The record of a live call is withdrawn, its entry damaged too (R182). -/
  | withdraw {W} {s : State} {p : PortNo} {e : EntryNo} {b : Binding} (h : s.call p = some (e, b))
      (hp : b.phase ≠ .clearing) : Part ⟨[], W, s⟩ ⟨[], p :: W, s.withdraw p⟩
  | quarantine {X W} {s : State} {p : PortNo} (h : (s.port p).sup ≠ .bound) :
      Part ⟨X, p :: W, s⟩ ⟨X, W, s.quarantine p⟩

abbrev Parts : Stage → Stage → Prop := Steps Part

variable {X : List EntryNo} {W : List PortNo}

theorem Parts.of_tables {t : State} (h : t.tables = s.tables) : Parts ⟨X, W, s⟩ ⟨X, W, t⟩ :=
  .single (.aside (.of_tables h))

theorem Parts.outward {a : Stage} {t u : State} (m : Parts a ⟨X, W, t⟩) (h : Outward t u) : Parts a ⟨X, W, u⟩ :=
  m.trans (Parts.of_tables h.tables)

/-- A promise that every part keeps is kept by a run of parts. -/
theorem Parts.keeps {P : Stage → Prop} (h : ∀ {a b}, Part a b → P a → P b) {a b : Stage} (m : Parts a b) (ha : P a) :
    P b := by
  induction m with
  | refl => exact ha
  | tail _ hm ih => exact h hm ih

/-- The handling of a failure, whatever has been reported before it. -/
theorem parts_reporting {a : Stage} (own : List Message) {f : State → State}
    (hf : ∀ u, Outward s u → Parts a ⟨X, W, f u⟩) : Parts a ⟨X, W, s.reporting own f⟩ :=
  reporting_ends (P := fun t => Parts a ⟨X, W, t⟩) own hf fun _ hu => hu.outward (outward_release _)

/-! ## A call that is being ended stands where it stood -/

/-- The call stands in its entry, its handle in neither list. -/
structure Apart (s : State) (e : EntryNo) (b : Binding) : Prop where
  entry : (s.entry e).binding = some b
  lists : NotRinging s b.handle

variable {e : EntryNo} {b : Binding}

theorem Apart.congr {t : State} (h : Apart s e b) (he : t.entries = s.entries) (hq : t.ringQueue = s.ringQueue)
    (hr : t.ringList = s.ringList) : Apart t e b :=
  ⟨by rw [State.entry_congr he]; exact h.entry, by unfold NotRinging; rw [hq, hr]; exact h.lists⟩

theorem Apart.outward {t : State} (h : Apart s e b) (o : Outward s t) : Apart t e b :=
  h.congr (congrArg Tables.entries o.tables) (congrArg Tables.ringQueue o.tables) (congrArg Tables.ringList o.tables)

theorem Apart.reporting (h : Apart s e b) (own : List Message) {f : State → State}
    (hf : ∀ t, Apart t e b → Apart (f t) e b) : Apart (s.reporting own f) e b :=
  reporting_ends (P := fun t => Apart t e b) own (fun _ hu => hf _ (h.outward hu)) fun _ ht => ht.outward (outward_release _)

theorem apart_unringing (h : (s.entry e).binding = some b) : Apart (unringing s b.handle) e b :=
  ⟨h, by constructor <;> intro x hx <;> simpa using (List.mem_filter.mp hx).2⟩

theorem Apart.unringing (h : Apart s e b) (k : Nat) : Apart (unringing s k) e b :=
  ⟨h.entry, fun r hr => h.lists.1 r (mem_of_filter hr), fun q hq => h.lists.2 q (mem_of_filter hq)⟩

theorem entry_writeEntry_ne {f : EntryNo} (hf : f ≠ e) (c : Option Binding) : (s.writeEntry f c).entry e = s.entry e := by
  rw [State.writeEntry, State.entry_setEntry, if_neg (Ne.symm hf)]

theorem Apart.writeEntry (h : Apart s e b) {f : EntryNo} (hf : f ≠ e) (c : Option Binding) :
    Apart (s.writeEntry f c) e b :=
  ⟨by rw [entry_writeEntry_ne hf]; exact h.entry, h.lists⟩

theorem calls_completeCease (p : PortNo) (k : Nat) : (s.completeCease p k).entries = s.entries ∧
    (s.completeCease p k).ringQueue = s.ringQueue ∧ (s.completeCease p k).ringList = s.ringList := by
  by_cases hc : Ceasing s p
  · cases hd : (s.line p).damaged
    · rw [completeCease_good hc hd]
      have sent := (outward_send (ceased s p (s.line p).total) (.ceased p (s.line p).key (s.line p).total)).tables
      exact ⟨congrArg Tables.entries sent, congrArg Tables.ringQueue sent, congrArg Tables.ringList sent⟩
    · rw [completeCease_damaged hc hd]
      refine reporting_ends (s := s.countFault.withdraw p)
        (P := fun t => t.entries = s.entries ∧ t.ringQueue = s.ringQueue ∧ t.ringList = s.ringList) _
        (fun u hu => ?_) fun _ h => h
      rw [State.quarantine_eq]
      exact ⟨congrArg Tables.entries hu.tables, congrArg Tables.ringQueue hu.tables,
        congrArg Tables.ringList hu.tables⟩
  · rw [completeCease_none hc]
    exact ⟨rfl, rfl, rfl⟩

/-- Another call retires without a pass. -/
theorem Apart.retireFailed (h : Apart s e b) {f : EntryNo} (hf : f ≠ e) (c : Binding) (k : Nat) :
    Apart (s.retireFailed id f c k) e b := by
  have left : Apart (s.leaveRinging id c.handle) e b := by
    by_cases hn : NotRinging s c.handle
    · rw [leaveRinging_none _ hn]; exact h
    · rw [leaveRinging_some _ hn]; exact h.unringing c.handle
  unfold State.retireFailed
  dsimp only
  generalize s.leaveRinging id c.handle = t at left ⊢
  obtain ⟨entries, queue, list⟩ := calls_completeCease
    (s := (((t.stopInjector c.port).suspect c.slot).writeEntry f none).settle c.port) c.port k
  refine Apart.congr (s := t.writeEntry f none) (left.writeEntry hf none) (entries.trans ?_) (queue.trans ?_)
    (list.trans ?_) <;> rw [State.settle_eq] <;> rfl

theorem Apart.failEntry (h : Apart s e b) {f : EntryNo} (hf : f ≠ e) (outer : Nat → List Message) :
    Apart (s.failEntry id outer f) e b := by
  have counted : Apart s.countFault e b := h.congr rfl rfl rfl
  unfold State.failEntry
  dsimp only
  split
  · exact counted.reporting _ fun t ht => ht.writeEntry hf none
  · next c _ =>
    split
    · exact (counted.congr (t := s.countFault.countFault) rfl rfl rfl).reporting _ fun t ht => ht.retireFailed hf c 0
    · exact (counted.outward (outward_sendNow _ _)).reporting _ fun t ht => ht.retireFailed hf c _

/-- The entry of a handle that some list holds is another one. -/
theorem Apart.ne (h : Apart s e b) {f : EntryNo} {c : Binding} {k : Nat} (hf : s.byHandle k = some (f, c))
    (hk : b.handle ≠ k) : f ≠ e := by
  rintro rfl
  obtain ⟨hb, hh⟩ := findBinding_found hf
  rw [h.entry] at hb
  cases hb
  exact hk (by simpa using hh)

theorem Apart.shedTail (h : Apart s e b) {r : RingEntry} (hr : r ∈ s.ringList) : Apart (s.shedTail r) e b := by
  unfold State.shedTail
  have hk : b.handle ≠ r.handle := fun he => h.lists.1 r hr he.symm
  split
  · exact ⟨h.entry, fun r hr => h.lists.1 r (mem_of_filter hr), h.lists.2⟩
  · next f c hf =>
    have hne := h.ne hf hk
    split
    · exact h.failEntry hne _
    · refine Apart.writeEntry ?_ hne _
      refine ⟨h.entry, fun r hr => h.lists.1 r (mem_of_filter hr), fun q hq => ?_⟩
      rcases List.mem_cons.mp hq with rfl | hq
      · exact Ne.symm hk
      · exact h.lists.2 q hq

theorem Apart.shedStep (h : Apart s e b) (fuel : Nat) : Apart (s.shedStep fuel) e b := by
  induction fuel generalizing s with
  | zero => exact h
  | succ fuel ih =>
    unfold State.shedStep
    split
    · split
      · next r hr => exact ih (h.shedTail (List.mem_of_getLast? hr))
      · exact h
    · exact h

theorem Apart.startHead (h : Apart s e b) {q : QueueEntry} (hq : q ∈ s.ringQueue) : Apart (s.startHead q) e b := by
  unfold State.startHead
  have hk : b.handle ≠ q.handle := fun he => h.lists.2 q hq he.symm
  split
  · exact ⟨h.entry, h.lists.1, fun q hq => h.lists.2 q (mem_of_filter hq)⟩
  · next f c hf =>
    have hne := h.ne hf hk
    split
    · exact h.failEntry hne _
    · refine Apart.writeEntry ?_ hne _
      refine ⟨h.entry, fun r hr => ?_, fun q hq => h.lists.2 q (mem_of_filter hq)⟩
      rcases List.mem_append.mp hr with hr | hr
      · exact h.lists.1 r hr
      · rw [List.mem_singleton.mp hr]
        exact Ne.symm hk

theorem Apart.admitStep (h : Apart s e b) (fuel : Nat) : Apart (s.admitStep fuel) e b := by
  induction fuel generalizing s with
  | zero => exact h
  | succ fuel ih =>
    unfold State.admitStep
    split
    · next q qs hq =>
      split
      · exact ih (h.startHead (by rw [hq]; exact List.mem_cons_self))
      · exact h
    · exact h

theorem Apart.budgetPass (h : Apart s e b) : Apart s.budgetPass e b := (h.shedStep _).admitStep _

/-! ## The operations as runs of parts -/

theorem settled_sup (q : Port) : (settled q).sup ≠ .bound := by
  unfold settled idled
  split
  · split
    · simp
    · split <;> simp
  · assumption

theorem endCall_sup (s : State) (e : EntryNo) (b : Binding) : ((s.endCall e b).port b.port).sup ≠ .bound := by
  rw [State.endCall, State.settle_eq, State.port_setPort, if_pos rfl]
  exact settled_sup _

/-- What a quarantine makes of the tables, it makes of them alone. -/
theorem tables_quarantine {t : State} (h : t.tables = s.tables) (p : PortNo) :
    (t.quarantine p).tables = (s.quarantine p).tables := by
  have tables (u : State) : (u.quarantine p).tables =
      { u.tables with ports := u.tables.ports.set p (quarantined u.tables.ports[p]) } := by
    rw [State.quarantine_eq]; rfl
  rw [tables, tables, h]

theorem tables_endCall {t : State} (h : t.tables = s.tables) (e : EntryNo) (b : Binding) :
    (t.endCall e b).tables = (s.endCall e b).tables := by
  have tables (u : State) : (u.endCall e b).tables =
      { u.tables with
        entries := u.tables.entries.set e { binding := none, damaged := false }
        ports := u.tables.ports.set b.port (settled u.tables.ports[b.port]) } := by
    rw [State.endCall, State.settle_eq]; rfl
  rw [tables, tables, h]

theorem tables_unringing {t : State} (h : t.tables = s.tables) (k : Nat) :
    (unringing t k).tables = (unringing s k).tables := by
  have tables (u : State) : (unringing u k).tables =
      { u.tables with
        ringQueue := u.tables.ringQueue.filter fun q => !decide (q.handle = k)
        ringList := u.tables.ringList.filter fun r => !decide (r.handle = k)
        committed := u.tables.committed -
          ((u.tables.ringList.filter fun r => decide (r.handle = k)).map (·.load)).sum } := rfl
  rw [tables, tables, h]

theorem parts_lineActionsRetiring {p : PortNo} (k : Nat)
    (h : (s.port p).sup ≠ .bound ∨ ∃ e ∈ X, ∃ b, (s.entry e).binding = some b ∧ b.port = p) :
    Parts ⟨X, W, s⟩ ⟨X, W, s.lineActionsRetiring p k⟩ :=
  parts_reporting (s := s.countFault.withdraw p) _ fun _ hu =>
    .trans (.single (.lineLost h)) (Parts.of_tables (tables_quarantine (s := s.withdraw p) hu.tables p))

theorem parts_completeCease {p : PortNo} (k : Nat) (h : (s.port p).sup ≠ .bound) :
    Parts ⟨X, W, s⟩ ⟨X, W, s.completeCease p k⟩ := by
  by_cases hc : Ceasing s p
  · cases hd : (s.line p).damaged
    · rw [completeCease_good hc hd]
      exact Parts.outward (.single (.ceased _ hc h)) (outward_send _ _)
    · rw [completeCease_damaged hc hd]
      exact parts_lineActionsRetiring k (.inl h)
  · rw [completeCease_none hc]

theorem parts_leaveRinging {after : State → State} (h : (s.entry e).binding = some b)
    (ha : ∀ t, Apart t e b → Parts ⟨e :: X, W, t⟩ ⟨e :: X, W, after t⟩) :
    Parts ⟨X, W, s⟩ ⟨e :: X, W, s.leaveRinging after b.handle⟩ := by
  have left : Parts ⟨X, W, s⟩ ⟨e :: X, W, unringing s b.handle⟩ := .single (.leave h)
  by_cases hn : NotRinging s b.handle
  · rw [leaveRinging_none _ hn]
    rwa [unringing_none hn] at left
  · rw [leaveRinging_some _ hn]
    exact left.trans (ha _ (apart_unringing h))

theorem Apart.leaveRinging {after : State → State} (h : (s.entry e).binding = some b)
    (ha : ∀ t, Apart t e b → Apart (after t) e b) : Apart (s.leaveRinging after b.handle) e b := by
  by_cases hn : NotRinging s b.handle
  · rw [leaveRinging_none _ hn]
    exact ⟨h, hn⟩
  · rw [leaveRinging_some _ hn]
    exact ha _ (apart_unringing h)

/-- The end of a call: its injector stops, its slot is given up, its entry emptied, its port settled and a deferred cease
completed (R89, R181). -/
theorem parts_endCall {t u : State} (h : (s.entry e).binding = some b)
    (ht : SlotEnd (s.stopInjector b.port) b.slot t) (hu : u.tables = t.tables) (k : Nat) :
    Parts ⟨e :: X, W, s⟩ ⟨X, W, ((u.writeEntry e none).settle b.port).completeCease b.port k⟩ := by
  have stopped : Parts ⟨e :: X, W, s⟩ ⟨e :: X, W, s.stopInjector b.port⟩ := .single (.aside (.setPort rfl fun hr => hr))
  have ended : Parts ⟨e :: X, W, s.stopInjector b.port⟩ ⟨X, W, t.endCall e b⟩ := .single (.endCall h ht)
  exact stopped.trans (ended.trans
    (.trans (Parts.of_tables (tables_endCall hu e b)) (parts_completeCease k (endCall_sup u e b))))

theorem parts_retireFailed {after : State → State} (h : (s.entry e).binding = some b) (k : Nat)
    (hk : ∀ t, Apart t e b → Apart (after t) e b)
    (ha : ∀ t, Apart t e b → Parts ⟨e :: X, W, t⟩ ⟨e :: X, W, after t⟩) :
    Parts ⟨X, W, s⟩ ⟨X, W, s.retireFailed after e b k⟩ :=
  .trans (parts_leaveRinging h ha) (parts_endCall (Apart.leaveRinging h hk).entry .suspect rfl k)

theorem parts_failEntry {after : State → State} (outer : Nat → List Message) (e : EntryNo)
    (hk : ∀ t b, Apart t e b → Apart (after t) e b)
    (ha : ∀ t, Parts ⟨e :: X, W, t⟩ ⟨e :: X, W, after t⟩) :
    Parts ⟨X, W, s⟩ ⟨X, W, s.failEntry after outer e⟩ := by
  have retired {b : Binding} (hb : (s.entry e).binding = some b) (k : Nat) {u : State} (hu : u.tables = s.tables) :
      Parts ⟨X, W, s⟩ ⟨X, W, u.retireFailed after e b k⟩ := by
    have he : (u.entry e).binding = some b := by rw [State.entry_congr (congrArg Tables.entries hu)]; exact hb
    exact .trans (Parts.of_tables hu) (parts_retireFailed he k (fun t => hk t b) fun t _ => ha t)
  unfold State.failEntry
  dsimp only
  split
  · next hb =>
    refine parts_reporting (s := s.countFault) _ fun u hu => ?_
    refine .trans (Parts.of_tables (t := u) hu.tables) (.single (.aside (.setEntry ?_)))
    rw [hu.entry]
    exact congrArg (Option.map Binding.ident) hb.symm
  · next b hb =>
    split
    · exact parts_reporting (s := s.countFault.countFault) _ fun u hu => retired hb 0 hu.tables
    · exact parts_reporting _ fun u hu => retired hb _ (hu.tables.trans (outward_sendNow _ _).tables)

theorem parts_shedTail {r : RingEntry} (hr : s.ringList.getLast? = some r) : Parts ⟨X, W, s⟩ ⟨X, W, s.shedTail r⟩ := by
  unfold State.shedTail
  split
  · next h => exact .single (.dropRinging h)
  · next f c hf =>
    split
    · exact parts_failEntry _ f (fun _ _ => id) fun _ => .refl
    · exact .single (.shed hr hf)

theorem parts_startHead {q : QueueEntry} {qs : List QueueEntry} (hq : s.ringQueue = q :: qs)
    (hs : s.mayStart q = true) : Parts ⟨X, W, s⟩ ⟨X, W, s.startHead q⟩ := by
  unfold State.startHead
  split
  · next h => exact .single (.dropQueued h)
  · next f c hf =>
    split
    · exact parts_failEntry _ f (fun _ _ => id) fun _ => .refl
    · exact .single (.startRing hq hf hs)

theorem parts_shedStep (fuel : Nat) : Parts ⟨X, W, s⟩ ⟨X, W, s.shedStep fuel⟩ := by
  induction fuel generalizing s with
  | zero => exact .refl
  | succ fuel ih =>
    unfold State.shedStep
    split
    · split
      · next r hr => exact (parts_shedTail hr).trans ih
      · exact .refl
    · exact .refl

theorem parts_admitStep (fuel : Nat) : Parts ⟨X, W, s⟩ ⟨X, W, s.admitStep fuel⟩ := by
  induction fuel generalizing s with
  | zero => exact .refl
  | succ fuel ih =>
    unfold State.admitStep
    split
    · next q qs hq =>
      split
      · next hs => exact (parts_startHead hq hs).trans ih
      · exact .refl
    · exact .refl

theorem parts_budgetPass : Parts ⟨X, W, s⟩ ⟨X, W, s.budgetPass⟩ := (parts_shedStep _).trans (parts_admitStep _)

theorem parts_bindingActions (outer : Nat → List Message) (e : EntryNo) :
    Parts ⟨X, W, s⟩ ⟨X, W, s.bindingActions outer e⟩ :=
  parts_failEntry outer e (fun _ _ h => h.budgetPass) fun _ => parts_budgetPass

theorem parts_slotActions (n : SlotNo) : Parts ⟨X, W, s⟩ ⟨X, W, s.slotActions n⟩ := by
  unfold State.slotActions
  dsimp only
  have byHandle (k : Nat) : (s.countFault.suspect n).byHandle k = s.byHandle k := rfl
  split
  · next hf =>
    refine parts_reporting (s := s.countFault.suspect n) _ fun u hu => ?_
    refine .trans (.single (.slotLost fun hn => ?_)) (Parts.of_tables (s := s.suspect n) hu.tables)
    rwa [if_pos hn, byHandle] at hf
  · next e b hf =>
    have hn : (s.slot n).state = .bound := by
      refine Classical.byContradiction fun hn => ?_
      rw [if_neg hn] at hf
      cases hf
    rw [if_pos hn, byHandle] at hf
    have hb : (s.entry e).binding = some b := (findBinding_found hf).1
    have retired (k : Nat) {u : State} (hu : u.tables = (s.suspect n).tables) :
        Parts ⟨X, W, s⟩ ⟨X, W, u.retireFailed State.budgetPass e b k⟩ := by
      have he : (u.entry e).binding = some b := by
        rw [State.entry_congr (congrArg Tables.entries hu)]; exact hb
      have left : Parts ⟨X, W, s⟩ ⟨e :: X, W, unringing u b.handle⟩ :=
        .trans (.single (.leaveSlot hn hf)) (Parts.of_tables (tables_unringing hu b.handle))
      have passed : Parts ⟨X, W, s⟩ ⟨e :: X, W, u.leaveRinging State.budgetPass b.handle⟩ := by
        by_cases hn : NotRinging u b.handle
        · rw [leaveRinging_none _ hn]
          rwa [unringing_none hn] at left
        · rw [leaveRinging_some _ hn]
          exact left.trans parts_budgetPass
      exact passed.trans (parts_endCall (Apart.leaveRinging he fun _ h => h.budgetPass).entry .suspect rfl k)
    split
    · exact parts_reporting (s := (s.countFault.suspect n).countFault) _ fun u hu => retired 0 hu.tables
    · exact parts_reporting _ fun u hu => retired _ (hu.tables.trans (outward_sendNow _ _).tables)

/-- The port of a call that has failed is BOUND no longer (R45). -/
theorem failEntry_sup {after : State → State} (outer : Nat → List Message) (h : (s.entry e).binding = some b) :
    ((s.failEntry after outer e).port b.port).sup ≠ .bound := by
  have completed (t : State) (k : Nat) (ht : (t.port b.port).sup ≠ .bound) :
      ((t.completeCease b.port k).port b.port).sup ≠ .bound := by
    by_cases hc : Ceasing t b.port
    · cases hd : (t.line b.port).damaged
      · rw [completeCease_good hc hd, (outward_send _ _).port]
        show ((t.setPort b.port (vacated (t.port b.port))).port b.port).sup ≠ .bound
        rw [State.port_setPort, if_pos rfl, vacated]
        split
        · exact ht
        · simp
      · rw [completeCease_damaged hc hd]
        refine reporting_ends (P := fun u => (u.port b.port).sup ≠ .bound) _ (fun u hu => ?_) fun _ h => h
        rw [State.quarantine_eq, State.port_setPort, if_pos rfl, quarantined]
        split
        · next ht => simp [ht]
        · split <;> simp
    · rw [completeCease_none hc]
      exact ht
  have retired (t : State) (k : Nat) : ((t.retireFailed after e b k).port b.port).sup ≠ .bound :=
    completed _ k (endCall_sup _ e b)
  have ends (t : State) (own : List Message) (k : Nat) :
      ((t.reporting own fun u => u.retireFailed after e b k).port b.port).sup ≠ .bound :=
    reporting_ends (P := fun u => (u.port b.port).sup ≠ .bound) _ (fun u _ => retired u k) fun _ h => h
  unfold State.failEntry
  dsimp only
  rw [show (s.countFault.entry e).binding = some b from h]
  dsimp only
  split <;> exact ends _ _ _

/-- A record and its entry both found damaged (R179, R182). -/
theorem parts_lineFailed {p : PortNo} (h : s.call p = some (e, b)) (hp : b.phase ≠ .clearing)
    (hd : (s.entry e).damaged = true) : Parts ⟨[], W, s⟩ ⟨[], W, s.lineActions p⟩ := by
  obtain rfl := call_port h
  have hcall : (s.countFault.withdraw b.port).call b.port = some (e, b) := h
  have hd' : ((s.countFault.withdraw b.port).entry e).damaged = true := hd
  unfold State.lineActions
  dsimp only
  rw [hcall]
  dsimp only
  rw [if_neg hp, if_pos hd']
  refine .trans (.single (.withdraw h hp)) (.trans (Parts.of_tables (t := s.countFault.withdraw b.port) rfl)
    (.trans (parts_bindingActions _ e) (.single (.quarantine ?_))))
  exact failEntry_sup (s := s.countFault.withdraw b.port) (after := State.budgetPass) _ (findBinding_found h).1

theorem parts_retireSteps (h : (s.entry e).binding = some b) : Parts ⟨X, W, s⟩ ⟨X, W, s.retireSteps e b⟩ := by
  unfold State.retireSteps
  dsimp only
  have passed : Parts ⟨X, W, s⟩ ⟨e :: X, W, s.leaveRinging State.budgetPass b.handle⟩ :=
    parts_leaveRinging h fun _ _ => parts_budgetPass
  have stands : ((s.leaveRinging State.budgetPass b.handle).entry e).binding = some b :=
    (Apart.leaveRinging h fun _ h => h.budgetPass).entry
  generalize s.leaveRinging State.budgetPass b.handle = t at passed stands ⊢
  have folded : Parts ⟨e :: X, W, t⟩ ⟨e :: X, W, t.fold b⟩ ∧ ((t.fold b).entry e).binding = some b := by
    unfold State.fold
    dsimp only
    split
    · exact ⟨.refl, stands⟩
    split
    · refine ⟨parts_lineActionsRetiring _ (.inr ⟨e, List.mem_cons_self, b, stands, rfl⟩), ?_⟩
      have same : (t.lineActionsRetiring b.port b.handle).entries = t.entries := by
        refine reporting_ends (s := t.countFault.withdraw b.port) (P := fun u => u.entries = t.entries) _
          (fun u hu => ?_) fun _ h => h
        rw [State.quarantine_eq]
        exact congrArg Tables.entries hu.tables
      rw [State.entry_congr same]
      exact stands
    · next hw _ =>
      exact ⟨.single (.aside (.setLine rfl rfl (by simpa using hw) rfl)), stands⟩
  obtain ⟨parts, stands⟩ := folded
  generalize t.fold b = u at parts stands ⊢
  refine (passed.trans parts).trans ?_
  unfold State.returnSlot
  split
  · exact parts_endCall stands .suspect (suspectAtUse_tables _ _ _) b.handle
  · unfold State.returnGoodSlot
    split
    · exact parts_endCall stands .block rfl b.handle
    · exact parts_endCall stands .free rfl b.handle

end Sys2Proof.Machine
end

section
/-!
PROOFS. Link loss and warm reset (R64, R65, R91, R92, R194, R208) as runs of smaller losses.
-/
namespace Sys2Proof.Machine

open Sys2Proof.Safety

variable {s : State}

/-- The ringing lists are emptied and L is 0 (R65). -/
def State.unring (s : State) : State := { s with ringQueue := [], ringList := [], committed := 0 }

/-- The parts of a link loss (`settle` true) and of a warm reset (false), the ringing lists emptied. -/
inductive Loss (settle : Bool) (s : State) : State → Prop
  | aside {t : State} (h : Alike s t) : Loss settle s t
  | endCall {e : EntryNo} {b : Binding} (h : (s.entry e).binding = some b) (hs : settle = true) :
      Loss settle s (s.endCall e b)
  | emptied (e : EntryNo) (hs : settle = false) : Loss settle s (s.writeEntry e none)
  | lineLost (p : PortNo) : Loss settle s ((s.withdraw p).quarantine p)
  | ceased {p : PortNo} (total : Nat) (hc : Ceasing s p) (hs : settle = true → (s.port p).sup ≠ .bound) :
      Loss settle s (ceased s p total)
  | slotEnd {n : SlotNo} {t : State} (h : (s.slot n).state = .bound) (ht : SlotEnd s n t) : Loss settle s t
  | dequeued (hs : settle = true) : Loss settle s s.emptyQueue
  | released (p : PortNo) {q : Port} (hb : s.bus.map (·.port) = some p) (hs : settle = true)
      (hq : ((s.line p).withdrawn = true ∧ q.sup = .quarantine) ∨
        ((s.line p).withdrawn = false ∧ q.sup ∈ [SupState.vacant, .parked, .lockout, .idle]))
      (hr : q.Rests) : Loss settle s ({ s with bus := none }.setPort p q)
  | cleared (hs : settle = false) : Loss settle s { s with nextHandle := 1, owq := [], bus := none }
  | placed (p : PortNo) {q : Port} (hs : settle = false)
      (hq : ((s.line p).withdrawn = true ∧ q.sup = .quarantine) ∨
        ((s.line p).withdrawn = false ∧ q.sup ∈ [SupState.vacant, .parked, .lockout, .idle]))
      (hr : q.Rests) : Loss settle s (s.setPort p q)

abbrev Losses (settle : Bool) : State → State → Prop := Steps (Loss settle)

variable {settle : Bool}

theorem Losses.of_tables {t : State} (h : t.tables = s.tables) : Losses settle s t := .single (.aside (.of_tables h))

theorem Losses.keeps {P : State → Prop} (h : ∀ {s t}, Loss settle s t → P s → P t) {s t : State} (m : Losses settle s t)
    (hs : P s) : P t := by
  induction m with
  | refl => exact hs
  | tail _ hm ih => exact h hm ih

theorem losses_foldl {α : Type} (f : State → α → State) (h : ∀ t a, Losses settle t (f t a)) (xs : List α) :
    Losses settle s (xs.foldl f s) := by
  induction xs generalizing s with
  | nil => exact .refl
  | cons x xs ih => exact (h s x).trans ih

theorem losses_lineActionsRetiring (p : PortNo) (k : Nat) : Losses settle s (s.lineActionsRetiring p k) :=
  reporting_ends (s := s.countFault.withdraw p) (P := Losses settle s) _
    (fun _ hu => .trans (.single (.lineLost p)) (Losses.of_tables (tables_quarantine (s := s.withdraw p) hu.tables p)))
    fun _ h => h.trans (Losses.of_tables rfl)

theorem losses_fold (b : Binding) : Losses settle s (s.fold b) := by
  unfold State.fold
  dsimp only
  split
  · exact .refl
  split
  · exact losses_lineActionsRetiring _ _
  · next hw _ => exact .single (.aside (.setLine rfl rfl (by simpa using hw) rfl))

theorem losses_completeCease {p : PortNo} (k : Nat) (hs : settle = true → (s.port p).sup ≠ .bound) :
    Losses settle s (s.completeCease p k) := by
  by_cases hc : Ceasing s p
  · cases hd : (s.line p).damaged
    · rw [completeCease_good hc hd]
      exact .trans (.single (.ceased _ hc hs)) (Losses.of_tables (outward_send _ _).tables)
    · rw [completeCease_damaged hc hd]
      exact losses_lineActionsRetiring _ _
  · rw [completeCease_none hc]

theorem fold_entries (b : Binding) : (s.fold b).entries = s.entries := by
  unfold State.fold
  dsimp only
  split
  · rfl
  split
  · refine reporting_ends (s := s.countFault.withdraw b.port) (P := fun u => u.entries = s.entries) _
      (fun u hu => ?_) fun _ h => h
    rw [State.quarantine_eq]
    exact congrArg Tables.entries hu.tables
  · rfl

theorem losses_retireQuiet (settle : Bool) (e : EntryNo) : Losses settle s (s.retireQuiet settle e) := by
  unfold State.retireQuiet
  split
  · exact .refl
  next b hb =>
  have folded : Losses settle s ((s.fold b).stopInjector b.port) :=
    .trans (losses_fold b) (.single (.aside (.setPort rfl fun h => h)))
  have entry : (((s.fold b).stopInjector b.port).entry e).binding = some b := by
    rw [State.entry_congr (show ((s.fold b).stopInjector b.port).entries = s.entries from fold_entries b)]
    exact hb
  dsimp only
  cases settle with
  | true =>
    exact folded.trans (.trans (.single (.endCall entry rfl)) (losses_completeCease _ fun _ => endCall_sup _ e b))
  | false => exact folded.trans (.trans (.single (.emptied e rfl)) (losses_completeCease _ nofun))

theorem losses_returnQuiet (n : SlotNo) : Losses settle s (s.returnQuiet n) := by
  unfold State.returnQuiet
  split
  · next hn =>
    split
    · exact .trans (Losses.of_tables (t := s.countFault) rfl) (.single (.slotEnd (s := s.countFault) hn .suspect))
    · unfold State.returnGoodSlot
      split
      · exact .single (.slotEnd hn .block)
      · exact .single (.slotEnd hn .free)
  · exact .refl

theorem losses_retireAll (s : State) (settle : Bool) : Losses settle s.unring (s.retireAll settle) :=
  .trans (losses_foldl (s := s.unring) _ (fun _ e => losses_retireQuiet settle e) _)
    (losses_foldl _ (fun _ n => losses_returnQuiet n) _)

/-! ## What is empty at the end -/

/-- No entry holds a call. -/
def NoCalls (s : State) : Prop := ∀ e, (s.entry e).binding = none

/-- No slot is held. -/
def NoneHeld (s : State) : Prop := ∀ n, (s.slot n).state ≠ .bound

theorem Loss.noCalls {t : State} (m : Loss settle s t) (h : NoCalls s) : NoCalls t := by
  cases m with
  | aside k => exact fun e => by simpa [h e] using k.bindings e
  | endCall hb => exact absurd hb (by simp [h _])
  | emptied f =>
    intro e
    rw [State.writeEntry, State.entry_setEntry]
    split
    · rfl
    · exact h e
  | lineLost => rw [State.quarantine_eq]; exact h
  | ceased => exact h
  | slotEnd _ ht => cases ht <;> exact h
  | dequeued =>
    have kept (xs : List Waiting) (t : State) (ht : NoCalls t) :
        NoCalls (xs.foldl (fun t w => t.place w.port .lockout) t) := by
      induction xs generalizing t with
      | nil => exact ht
      | cons w xs ih => exact ih _ ht
    exact kept s.owq s h
  | released => exact h
  | cleared => exact h
  | placed => exact h

theorem Loss.noneHeld {t : State} (m : Loss settle s t) (h : NoneHeld s) : NoneHeld t := by
  cases m with
  | aside k => exact fun n => by rw [k.slotState]; exact h n
  | endCall => rw [State.endCall, State.settle_eq]; exact h
  | emptied => exact h
  | lineLost => rw [State.quarantine_eq]; exact h
  | ceased => exact h
  | slotEnd hn => exact absurd hn (h _)
  | dequeued =>
    have kept (xs : List Waiting) (t : State) (ht : NoneHeld t) :
        NoneHeld (xs.foldl (fun t w => t.place w.port .lockout) t) := by
      induction xs generalizing t with
      | nil => exact ht
      | cons w xs ih => exact ih _ ht
    exact kept s.owq s h
  | released => exact h
  | cleared => exact h
  | placed => exact h

/-- What a step has reached at one place, and every later step keeps, holds at every place in the end. -/
theorem foldl_reaches {α : Type} {I : State → Prop} {P : State → α → Prop} (f : State → α → State)
    (hold : ∀ t a, I t → I (f t a)) (reach : ∀ t a, I t → P (f t a) a)
    (keep : ∀ t a x, I t → P t x → P (f t a) x) {xs : List α} {x : α} (hx : x ∈ xs) (s : State) (hs : I s) :
    P (xs.foldl f s) x := by
  have kept (xs : List α) (t : State) (ht : I t) (h : P t x) : P (xs.foldl f t) x := by
    induction xs generalizing t with
    | nil => exact h
    | cons a xs ih => exact ih _ (hold t a ht) (keep t a x ht h)
  induction xs generalizing s with
  | nil => cases hx
  | cons a xs ih =>
    rcases List.mem_cons.mp hx with rfl | hx
    · exact kept xs _ (hold s x hs) (reach s x hs)
    · exact ih hx _ (hold s a hs)

theorem retireQuiet_entries (settle : Bool) (e : EntryNo) :
    (s.retireQuiet settle e).entries = if (s.entry e).binding = none then s.entries
      else s.entries.set e { binding := none, damaged := false } := by
  unfold State.retireQuiet
  split
  · next h => rw [if_pos h]
  · next b h =>
    rw [if_neg (by simp [h])]
    have written : (((s.fold b).stopInjector b.port).writeEntry e none).entries =
        s.entries.set e { binding := none, damaged := false } := by
      show ((s.fold b).entries.set e _) = _
      rw [fold_entries]
    dsimp only
    rw [(calls_completeCease _ _).1]
    split
    · rw [State.settle_eq]; exact written
    · exact written

theorem noCalls_retireAll (s : State) (settle : Bool) : NoCalls (s.retireAll settle) := by
  have returned (t : State) (h : NoCalls t) : NoCalls (allSlots.foldl State.returnQuiet t) :=
    Losses.keeps (settle := settle) Loss.noCalls (losses_foldl _ (fun _ n => losses_returnQuiet n) _) h
  unfold State.retireAll
  dsimp only
  refine returned _ fun e => ?_
  generalize ({ s with ringQueue := [], ringList := [], committed := 0 } : State) = u
  refine foldl_reaches (I := fun _ => True) (P := fun t x => (t.entry x).binding = none)
    (fun v e => v.retireQuiet settle e) (fun _ _ => id) (fun t a _ => ?_) (fun t a x _ hx => ?_) (xs := allEntries) (x := e)
    (List.mem_finRange e) u trivial
  · by_cases ha : (t.entry a).binding = none
    · rw [State.entry_congr ((retireQuiet_entries settle a).trans (if_pos ha))]
      exact ha
    · rw [State.entry_congr (t := t.retireQuiet settle a) (s := t.writeEntry a none)
        ((retireQuiet_entries settle a).trans (if_neg ha)), State.writeEntry, State.entry_setEntry, if_pos rfl]
  · by_cases ha : (t.entry a).binding = none
    · rw [State.entry_congr ((retireQuiet_entries settle a).trans (if_pos ha))]
      exact hx
    · rw [State.entry_congr (t := t.retireQuiet settle a) (s := t.writeEntry a none)
        ((retireQuiet_entries settle a).trans (if_neg ha)), State.writeEntry, State.entry_setEntry]
      split
      · rfl
      · exact hx

theorem noneHeld_retireAll (s : State) (settle : Bool) : NoneHeld (s.retireAll settle) := by
  have other {t u : State} {a : SlotNo} (h : SlotEnd t a u) (x : SlotNo) :
      (u.slot x).state = if x = a then (u.slot a).state else (t.slot x).state := by
    have written (v : Slot) : ((t.setSlot a v).slot x).state =
        if x = a then ((t.setSlot a v).slot a).state else (t.slot x).state := by
      rw [State.slot_setSlot, State.slot_setSlot, if_pos rfl]
      split <;> rfl
    cases h <;> exact written _
  have ended {t u : State} {a : SlotNo} (h : SlotEnd t a u) : (u.slot a).state ≠ .bound := by
    have written (v : Slot) (hv : v.state ≠ .bound) : ((t.setSlot a v).slot a).state ≠ .bound := by
      rwa [State.slot_setSlot, if_pos rfl]
    cases h <;> exact written _ (by decide)
  have returned (t : State) (a : SlotNo) (h : (t.slot a).state = .bound) :
      ∃ v : State, v.slots = t.slots ∧ SlotEnd v a (t.returnQuiet a) := by
    unfold State.returnQuiet
    rw [if_pos h]
    split
    · exact ⟨t.countFault, rfl, .suspect⟩
    · unfold State.returnGoodSlot
      split
      · exact ⟨t, rfl, .block⟩
      · exact ⟨t, rfl, .free⟩
  intro n
  unfold State.retireAll
  dsimp only
  generalize allEntries.foldl (fun v e => v.retireQuiet settle e)
    { s with ringQueue := [], ringList := [], committed := 0 } = w
  refine foldl_reaches (I := fun _ => True) (P := fun t x => (t.slot x).state ≠ .bound) State.returnQuiet (fun _ _ => id)
    (fun t a _ => ?_) (fun t a x _ hx => ?_) (xs := allSlots) (x := n) (List.mem_finRange n) w trivial
  · by_cases ha : (t.slot a).state = .bound
    · obtain ⟨v, _, hv⟩ := returned t a ha
      exact ended hv
    · rw [State.returnQuiet, if_neg ha]
      exact ha
  · by_cases ha : (t.slot a).state = .bound
    · obtain ⟨v, same, hv⟩ := returned t a ha
      rw [other hv]
      split
      · exact ended hv
      · rw [State.slot_congr same]; exact hx
    · rw [State.returnQuiet, if_neg ha]
      exact hx

/-! ## Placing ports, no call being live -/

theorem lineActions_noCalls (h : NoCalls s) (p : PortNo) :
    Losses settle s (s.lineActions p) ∧ (s.lineActions p).tables = ((s.withdraw p).quarantine p).tables := by
  have none : (s.countFault.withdraw p).call p = none := by
    unfold State.call State.findBinding
    rw [List.findSome?_eq_none_iff]
    intro e _
    rw [show ((s.countFault.withdraw p).entry e).binding = none from h e]
  have tables : (s.lineActions p).tables = ((s.withdraw p).quarantine p).tables := by
    unfold State.lineActions
    dsimp only
    rw [none]
    exact reporting_ends (s := s.countFault.withdraw p) (P := fun t => t.tables = ((s.withdraw p).quarantine p).tables) _
      (fun _ hu => tables_quarantine (s := s.withdraw p) hu.tables p) fun _ h => h
  exact ⟨.trans (.single (.lineLost p)) (Losses.of_tables tables), tables⟩

theorem losses_readToPlace (h : NoCalls s) (p : PortNo) :
    Losses settle s (s.readToPlace p) ∧ (s.readToPlace p).bus = s.bus := by
  unfold State.readToPlace
  split
  · obtain ⟨losses, tables⟩ := lineActions_noCalls (settle := settle) h p
    refine ⟨losses, (congrArg Tables.bus tables).trans ?_⟩
    rw [State.quarantine_eq]
    rfl
  · exact ⟨.refl, rfl⟩

theorem returnState_mem (s : State) (p : PortNo) : s.returnState p ∈ [SupState.vacant, .parked, .lockout, .idle] := by
  unfold State.returnState
  split
  · simp
  split
  · simp
  split <;> simp

theorem losses_freeBus (h : NoCalls s) : Losses true s s.freeBus := by
  unfold State.freeBus
  split
  · next held hb =>
    rw [disconnect_eq]
    obtain ⟨read, bus⟩ := losses_readToPlace (settle := true) h held.port
    generalize s.readToPlace held.port = t at read bus ⊢
    refine read.tail (.released held.port (by rw [bus, hb]; rfl) rfl ?_ (place_rests _ _))
    rw [place_sup, State.placeOf]
    cases hw : (t.line held.port).withdrawn
    · exact .inr ⟨rfl, by simpa using returnState_mem t held.port⟩
    · exact .inl ⟨rfl, rfl⟩
  · exact .refl

/-- The state of a link loss when every binding has retired (R194). -/
def State.unlinked (s : State) : State :=
  ({ s with link := .down, lossHold := none, assembly := [] } : State).retireAll true

theorem linkLoss_unlinked (s : State) : Losses true s.unlinked s.linkLoss := by
  rw [linkLoss_eq]
  unfold State.unlinked
  generalize ({ s with link := .down, lossHold := none, assembly := [] } : State) = u
  have emptied := noCalls_retireAll u true
  have retired : Losses true (u.retireAll true) (u.retireAll true).emptyQueue := .single (.dequeued rfl)
  have still : NoCalls (u.retireAll true).emptyQueue := (Loss.dequeued (settle := true) rfl).noCalls emptied
  have freed : Losses true (u.retireAll true) u.loseCalls := retired.trans (losses_freeBus still)
  generalize u.loseCalls = v at freed ⊢
  refine freed.trans (Losses.of_tables ?_)
  unfold State.markWalk
  split <;> rfl

theorem losses_linkLoss (s : State) : Losses true s.unring s.linkLoss :=
  .trans (b := ({ s with link := .down, lossHold := none, assembly := [] } : State).unring)
    (Losses.of_tables rfl) ((losses_retireAll _ true).trans (linkLoss_unlinked s))

theorem Loss.owq_nil {settle : Bool} {t : State} (m : Loss settle s t) (h : s.owq = []) : t.owq = [] := by
  cases m with
  | aside k => exact List.map_eq_nil_iff.mp (by rw [k.owq, h]; rfl)
  | endCall => rw [State.endCall, State.settle_eq]; exact h
  | emptied => exact h
  | lineLost =>
    rw [State.quarantine_eq]
    show s.owq.filter _ = []
    rw [h]
    rfl
  | ceased =>
    show s.owq.filter _ = []
    rw [h]
    rfl
  | slotEnd _ ht => cases ht <;> exact h
  | dequeued => rfl
  | released => exact h
  | cleared => rfl
  | placed => exact h

/-- A link loss leaves the queue and the bus empty (R108, R175). -/
theorem linkLoss_free (s : State) : s.linkLoss.owq = [] ∧ s.linkLoss.bus = none := by
  rw [linkLoss_eq]
  generalize ({ s with link := .down, lossHold := none, assembly := [] } : State) = u
  have still : NoCalls (u.retireAll true).emptyQueue :=
    (Loss.dequeued (settle := true) rfl).noCalls (noCalls_retireAll u true)
  have freed : u.loseCalls.owq = [] := (losses_freeBus still).keeps Loss.owq_nil rfl
  have bus : u.loseCalls.bus = none := by
    unfold State.loseCalls State.freeBus
    split
    · rw [disconnect_eq]; rfl
    · next h => exact h
  generalize u.loseCalls = v at freed bus ⊢
  unfold State.markWalk
  split <;> exact ⟨freed, bus⟩

/-- A link loss leaves no call and no slot held (R194). -/
theorem linkLoss_empty (s : State) : NoCalls s.linkLoss ∧ NoneHeld s.linkLoss :=
  ⟨(linkLoss_unlinked s).keeps Loss.noCalls (noCalls_retireAll _ true),
    (linkLoss_unlinked s).keeps Loss.noneHeld (noneHeld_retireAll _ true)⟩

theorem losses_resetPort (h : NoCalls s) (p : PortNo) : Losses false s (s.resetPort p) := by
  unfold State.resetPort
  dsimp only
  have stopped : Losses false s
      (s.setPort p { s.port p with parkPending := false, pulses := 0, makeTimer := none, injector := .idle }) :=
    .single (.aside (.setPort rfl fun h => h))
  have calls : NoCalls (s.setPort p { s.port p with parkPending := false, pulses := 0, makeTimer := none, injector := .idle }) := h
  generalize s.setPort p { s.port p with parkPending := false, pulses := 0, makeTimer := none, injector := .idle } = t
    at stopped calls ⊢
  have read : Losses false t (if t.placementFault p then t.lineActions p else t) := (losses_readToPlace calls p).1
  generalize (if t.placementFault p then t.lineActions p else t) = u at read ⊢
  refine (stopped.trans read).trans ?_
  cases hw : (u.line p).withdrawn
  · exact .single (.placed p rfl (.inr ⟨hw, by simpa [place_sup] using returnState_mem u p⟩) (place_rests _ _))
  · exact .single (.placed p rfl (.inl ⟨hw, place_sup _ _⟩) (place_rests _ _))

theorem losses_resetPorts (ps : List PortNo) (v : State) (h : NoCalls v) : Losses false v (ps.foldl State.resetPort v) := by
  induction ps generalizing v with
  | nil => exact .refl
  | cons p ps ih =>
    have reset := losses_resetPort h p
    exact reset.trans (ih _ (reset.keeps Loss.noCalls h))

/-- The state of a warm reset when every binding has retired and the queue and the bus are free (R208). -/
def State.halted (s : State) : State :=
  { (({ s with engine := .idle } : State).retireAll false).emptyEntries with nextHandle := 1, owq := [], bus := none }

theorem losses_halted (s : State) : Losses false (({ s with engine := .idle } : State).retireAll false) s.halted :=
  .trans (losses_foldl _ (fun _ e => .single (.emptied e rfl)) _) (.single (.cleared rfl))

theorem noCalls_halted (s : State) : NoCalls s.halted := (losses_halted s).keeps Loss.noCalls (noCalls_retireAll _ false)

theorem warmReset_tables (s : State) : s.warmReset.tables = (allPorts.foldl State.resetPort s.halted).tables := by
  unfold State.warmReset State.silently State.halted
  dsimp only
  generalize (({ s with engine := .idle } : State).retireAll false).emptyEntries = v
  generalize allPorts.foldl State.resetPort { v with nextHandle := 1, owq := [], bus := none } = w
  rfl

theorem warmReset_halted (s : State) : Losses false s.halted s.warmReset :=
  (losses_resetPorts allPorts s.halted (noCalls_halted s)).trans (Losses.of_tables (warmReset_tables s))

theorem losses_warmReset (s : State) : Losses false s.unring s.warmReset :=
  .trans (Losses.of_tables (t := ({ s with engine := .idle } : State).unring) rfl)
    ((losses_retireAll _ false).trans ((losses_halted s).trans (warmReset_halted s)))

/-- A warm reset leaves no call and no slot held (R208). -/
theorem warmReset_empty (s : State) : NoCalls s.warmReset ∧ NoneHeld s.warmReset :=
  ⟨(warmReset_halted s).keeps Loss.noCalls (noCalls_halted s),
    (warmReset_halted s).keeps Loss.noneHeld ((losses_halted s).keeps Loss.noneHeld (noneHeld_retireAll _ false))⟩

end Sys2Proof.Machine
end

section
/-!
PROOFS. The ringing budget: L is the sum of the ringing loads through every part of every move, and a budget pass leaves
it within A or with a lone ringer (BudgetIsKept).
-/
namespace Sys2Proof.Machine

open Sys2Proof.Safety

variable {s : State}

/-- L is the sum of the loads on the ringing list, and every load is at least 1 (R1, R116, R119). -/
structure Ledger (s : State) : Prop where
  sum : s.committed = (s.ringList.map (·.load)).sum
  ringing : ∀ r ∈ s.ringList, 1 ≤ r.load
  queued : ∀ q ∈ s.ringQueue, 1 ≤ q.load
  lines : ∀ p, 1 ≤ (s.line p).load

/-- L is within A, or one binding rings with A above 0 (R119). -/
def Within (s : State) : Prop := s.committed ≤ s.available ∨ (s.ringList.length = 1 ∧ 0 < s.available)

theorem budgetHeld_iff : BudgetHeld s ↔ Ledger s ∧ Within s :=
  ⟨fun ⟨h1, h2, h3, h4, h5⟩ => ⟨⟨h1, h2, h3, h4⟩, h5⟩, fun ⟨⟨h1, h2, h3, h4⟩, h5⟩ => ⟨h1, h2, h3, h4, h5⟩⟩

/-- The two states have the same lists, L and A. -/
structure SameRinging (s t : State) : Prop where
  queue : t.ringQueue = s.ringQueue
  list : t.ringList.map RingEntry.ident = s.ringList.map RingEntry.ident
  committed : t.committed = s.committed
  available : t.available = s.available

theorem SameRinging.of_eq {t : State} (hq : t.ringQueue = s.ringQueue) (hr : t.ringList = s.ringList)
    (hc : t.committed = s.committed) (ha : t.available = s.available) : SameRinging s t := ⟨hq, by rw [hr], hc, ha⟩

theorem loads_of_idents {xs ys : List RingEntry} (h : xs.map RingEntry.ident = ys.map RingEntry.ident) :
    xs.map (·.load) = ys.map (·.load) := by
  have loads (zs : List RingEntry) : zs.map (·.load) = (zs.map RingEntry.ident).map (·.2.2) := by
    rw [List.map_map]; rfl
  rw [loads, loads, h]

theorem SameRinging.ledger {t : State} (k : SameRinging s t) (h : Ledger s) (hl : ∀ p, 1 ≤ (t.line p).load) : Ledger t := by
  have loads := loads_of_idents k.list
  refine ⟨by rw [k.committed, loads]; exact h.sum, fun r hr => ?_, by rw [k.queue]; exact h.queued, hl⟩
  have mem : r.load ∈ s.ringList.map (·.load) := loads ▸ List.mem_map_of_mem (f := fun r : RingEntry => r.load) hr
  obtain ⟨x, hx, he⟩ := List.mem_map.mp mem
  exact he ▸ h.ringing x hx

theorem SameRinging.within {t : State} (k : SameRinging s t) (h : Within s) : Within t := by
  have length := congrArg List.length k.list
  simp only [List.length_map] at length
  unfold Within
  rw [k.committed, k.available, length]
  exact h

theorem Ledger.fewer {t : State} (h : Ledger s) (hr : t.ringList.Sublist s.ringList)
    (hc : t.committed = (t.ringList.map (·.load)).sum) (hq : ∀ q ∈ t.ringQueue, 1 ≤ q.load)
    (hl : ∀ p, 1 ≤ (t.line p).load) : Ledger t :=
  ⟨hc, fun r hm => h.ringing r (hr.subset hm), hq, hl⟩

/-- Fewer that ring stay within A, or the one that is left rings alone. -/
theorem Within.fewer {t : State} (h : Within s) (hs : Ledger s) (ht : Ledger t) (hr : t.ringList.Sublist s.ringList)
    (ha : t.available = s.available) : Within t := by
  have less : t.committed ≤ s.committed := by
    rw [hs.sum, ht.sum]
    exact sum_le_of_sublist (hr.map _)
  rcases h with h | ⟨h, hpos⟩
  · exact .inl (by omega)
  · have length := hr.length_le
    by_cases one : t.ringList.length = 1
    · exact .inr ⟨one, by omega⟩
    · have none : t.ringList = [] := List.eq_nil_of_length_eq_zero (by omega)
      exact .inl (by rw [ht.sum, none]; simp)

theorem sum_without (xs : List RingEntry) (k : Nat) :
    (xs.map (·.load)).sum - ((xs.filter fun r => decide (r.handle = k)).map (·.load)).sum =
      ((xs.filter fun r => !decide (r.handle = k)).map (·.load)).sum := by
  have split : (xs.map (·.load)).sum = ((xs.filter fun r => decide (r.handle = k)).map (·.load)).sum +
      ((xs.filter fun r => !decide (r.handle = k)).map (·.load)).sum := by
    induction xs with
    | nil => rfl
    | cons x xs ih => by_cases hx : x.handle = k <;> simp [hx, ih] <;> omega
  omega

theorem committed_without (h : Ledger s) (k : Nat) :
    s.committed - ((s.ringList.filter fun r => decide (r.handle = k)).map (·.load)).sum =
      ((s.ringList.filter fun r => !decide (r.handle = k)).map (·.load)).sum := by
  rw [h.sum, sum_without]

theorem ledger_dropRinging (h : Ledger s) (k : Nat) : Ledger (s.dropRinging k) :=
  h.fewer List.filter_sublist (committed_without h k) h.queued h.lines

theorem ledger_unringing (h : Ledger s) (k : Nat) : Ledger (unringing s k) :=
  h.fewer List.filter_sublist (committed_without h k) (fun q hq => h.queued q (mem_of_filter hq))
    h.lines

theorem ledger_shed (h : Ledger s) {r : RingEntry} (hr : r ∈ s.ringList) (e : EntryNo) (b : Binding) :
    Ledger (s.shed r e b) := by
  have dropped := ledger_dropRinging h r.handle
  refine h.fewer List.filter_sublist dropped.sum (fun q hq => ?_) h.lines
  rcases List.mem_cons.mp hq with rfl | hq
  · exact h.ringing r hr
  · exact h.queued q hq

theorem ledger_startRing (h : Ledger s) {q : QueueEntry} (hq : q ∈ s.ringQueue) (e : EntryNo) (b : Binding) :
    Ledger (s.startRing q e b) := by
  refine ⟨?_, fun r hr => ?_, fun x hx => h.queued x (mem_of_filter hx), h.lines⟩
  · show s.committed + q.load = ((s.ringList ++ [_]).map RingEntry.load).sum
    simp [h.sum]
  · rcases List.mem_append.mp hr with hr | hr
    · exact h.ringing r hr
    · rw [List.mem_singleton.mp hr]
      exact h.queued q hq

theorem within_startRing (h : Ledger s) {q : QueueEntry} (hs : s.mayStart q = true) (e : EntryNo)
    (b : Binding) : Within (s.startRing q e b) := by
  have starts : s.committed + q.load ≤ s.available ∨ (s.committed = 0 ∧ 0 < s.available) := by
    simpa [State.mayStart] using hs
  rcases starts with fits | ⟨none, pos⟩
  · exact .inl fits
  · have empty : s.ringList = [] := by
      refine Classical.byContradiction fun some => ?_
      obtain ⟨r, hr⟩ := List.exists_mem_of_ne_nil _ some
      have load := h.ringing r hr
      have le := sum_le_of_sublist (List.singleton_sublist.mpr (List.mem_map_of_mem (f := fun r : RingEntry => r.load) hr))
      have sum := h.sum
      rw [List.sum_singleton] at le
      omega
    refine .inr ⟨?_, pos⟩
    show (s.ringList ++ [_]).length = 1
    rw [empty]
    rfl

/-! ## Parts and moves -/

theorem line_load_withdraw (p q : PortNo) : ((s.withdraw p).line q).load = (s.line q).load := by
  show ((s.setLine p { s.line p with withdrawn := true }).line q).load = _
  rw [State.line_setLine]
  split
  · next h => rw [h]
  · rfl

theorem line_load_ceased (p q : PortNo) (total : Nat) (h : ∀ r, 1 ≤ (s.line r).load) :
    1 ≤ ((ceased s p total).line q).load := by
  show 1 ≤ ((s.setLine p { LineRecord.initial with total := total }).line q).load
  rw [State.line_setLine]
  split
  · exact (by decide : 1 ≤ LineRecord.initial.load)
  · exact h q

/-- Every part keeps the ledger; and it keeps L within A. -/
theorem Part.ledger {a b : Stage} (m : Part a b) (h : Ledger a.state) :
    Ledger b.state ∧ (Within a.state → Within b.state) := by
  have same {s t : State} (h : Ledger s) (k : SameRinging s t) (hl : ∀ p, 1 ≤ (t.line p).load) :
      Ledger t ∧ (Within s → Within t) := ⟨k.ledger h hl, k.within⟩
  cases m with
  | aside k =>
    exact same h ⟨k.ringQueue, k.ringList, k.committed, k.available⟩ fun p => by rw [k.load]; exact h.lines p
  | leave =>
    have left := ledger_unringing h
    exact ⟨left _, fun hw => hw.fewer h (left _) List.filter_sublist rfl⟩
  | @leaveSlot _ _ s n _ b =>
    have suspected : Ledger (s.suspect n) := ⟨h.sum, h.ringing, h.queued, h.lines⟩
    exact ⟨ledger_unringing suspected b.handle,
      fun hw => hw.fewer h (ledger_unringing suspected b.handle) List.filter_sublist rfl⟩
  | slotLost => exact same h (.of_eq rfl rfl rfl rfl) h.lines
  | dropRinging => exact ⟨ledger_dropRinging h _, fun hw => hw.fewer h (ledger_dropRinging h _) List.filter_sublist rfl⟩
  | dropQueued =>
    exact ⟨⟨h.sum, h.ringing, fun q hq => h.queued q (mem_of_filter hq), h.lines⟩, fun hw => hw⟩
  | shed hr =>
    have ledger := ledger_shed h (List.mem_of_getLast? hr)
    exact ⟨ledger _ _, fun hw => hw.fewer h (ledger _ _) List.filter_sublist rfl⟩
  | startRing hq _ hs =>
    have mem := hq ▸ List.mem_cons_self
    exact ⟨ledger_startRing h mem _ _, fun _ => within_startRing h hs _ _⟩
  | endCall _ ht =>
    rw [State.endCall, State.settle_eq]
    cases ht <;> exact same h (.of_eq rfl rfl rfl rfl) h.lines
  | lineLost =>
    rw [State.quarantine_eq]
    exact same h (.of_eq rfl rfl rfl rfl) fun p => (line_load_withdraw _ p).symm ▸ h.lines p
  | ceased => exact same h (.of_eq rfl rfl rfl rfl) fun p => line_load_ceased _ p _ h.lines
  | withdraw => exact same h (.of_eq rfl rfl rfl rfl) fun p => (line_load_withdraw _ p).symm ▸ h.lines p
  | quarantine =>
    rw [State.quarantine_eq]
    exact same h (.of_eq rfl rfl rfl rfl) h.lines

variable {X Y : List EntryNo} {W V : List PortNo}

theorem Parts.ledger {t : State} (m : Parts ⟨X, W, s⟩ ⟨Y, V, t⟩) (h : Ledger s) : Ledger t :=
  m.keeps (P := fun a => Ledger a.state) (fun m h => (m.ledger h).1) h

theorem Parts.budget {t : State} (m : Parts ⟨X, W, s⟩ ⟨Y, V, t⟩) (h : BudgetHeld s) : BudgetHeld t :=
  m.keeps (P := fun a => BudgetHeld a.state) (fun m h => by
    obtain ⟨ledger, within⟩ := budgetHeld_iff.mp h
    exact budgetHeld_iff.mpr ⟨(m.ledger ledger).1, (m.ledger ledger).2 within⟩) h

/-! ## The budget pass brings L within A -/

theorem failEntry_ringList (outer : Nat → List Message) {e : EntryNo} {b : Binding} (h : (s.entry e).binding = some b) :
    (s.failEntry id outer e).ringList = (unringing s b.handle).ringList := by
  have retired (t : State) (k : Nat) (ht : t.ringList = s.ringList) :
      (t.retireFailed id e b k).ringList = (unringing s b.handle).ringList := by
    have left : (t.leaveRinging id b.handle).ringList = (unringing t b.handle).ringList := by
      by_cases hn : NotRinging t b.handle
      · rw [leaveRinging_none _ hn, unringing_none hn]
      · rw [leaveRinging_some _ hn]; rfl
    unfold State.retireFailed
    dsimp only
    rw [(calls_completeCease _ _).2.2, State.settle_eq]
    exact left.trans (by unfold unringing; dsimp only; rw [ht])
  have ends (t : State) (own : List Message) (k : Nat) (ht : t.ringList = s.ringList) :
      (t.reporting own fun u => u.retireFailed id e b k).ringList = (unringing s b.handle).ringList :=
    reporting_ends (P := fun u => u.ringList = (unringing s b.handle).ringList) _
      (fun u hu => retired u k ((congrArg Tables.ringList hu.tables).trans ht)) fun _ h => h
  unfold State.failEntry
  dsimp only
  rw [show (s.countFault.entry e).binding = some b from h]
  dsimp only
  split
  · exact ends s.countFault.countFault _ _ rfl
  · exact ends _ _ _ (congrArg Tables.ringList (outward_sendNow s.countFault _).tables)

/-- A shed makes the ringing list shorter, whether its entry reads good or not (R126, R182). -/
theorem shedTail_shorter {r : RingEntry} (hr : r ∈ s.ringList) :
    (s.shedTail r).ringList.length < s.ringList.length := by
  have shorter : (s.ringList.filter fun x => !decide (x.handle = r.handle)).length < s.ringList.length :=
    List.length_filter_lt_length_iff_exists.mpr ⟨r, hr, by simp⟩
  unfold State.shedTail
  split
  · exact shorter
  · next f c hf =>
    obtain ⟨hc, hh⟩ := findBinding_found hf
    split
    · rw [failEntry_ringList _ hc]
      rw [show c.handle = r.handle by simpa using hh]
      exact shorter
    · exact shorter

theorem within_shedStep (fuel : Nat) (h : Ledger s) (hf : s.ringList.length < fuel) : Within (s.shedStep fuel) := by
  induction fuel generalizing s with
  | zero => omega
  | succ fuel ih =>
    unfold State.shedStep
    split
    · split
      · next r hr =>
        have shorter := shedTail_shorter (List.mem_of_getLast? hr)
        have shed : Parts ⟨[], [], s⟩ ⟨[], [], s.shedTail r⟩ := parts_shedTail hr
        exact ih (shed.ledger h) (by omega)
      · next hr =>
        have none : s.ringList = [] := List.getLast?_eq_none_iff.mp hr
        exact .inl (by rw [h.sum, none]; simp)
    · next stop =>
      by_cases fits : s.committed ≤ s.available
      · exact .inl fits
      · by_cases one : s.ringList.length = 1
        · exact .inr ⟨one, by omega⟩
        · have none : s.ringList = [] := List.eq_nil_of_length_eq_zero (by omega)
          exact .inl (by rw [h.sum, none]; simp)

theorem budget_budgetPass (h : Ledger s) : BudgetHeld s.budgetPass := by
  have shed : Parts ⟨[], [], s⟩ ⟨[], [], s.shedStep (s.ringList.length + 1)⟩ := parts_shedStep _
  have held : BudgetHeld (s.shedStep (s.ringList.length + 1)) :=
    budgetHeld_iff.mpr ⟨shed.ledger h, within_shedStep _ h (by omega)⟩
  unfold State.budgetPass
  dsimp only
  generalize s.shedStep (s.ringList.length + 1) = t at held ⊢
  have admitted : Parts ⟨[], [], t⟩ ⟨[], [], t.admitStep (t.ringQueue.length + 1)⟩ := parts_admitStep _
  exact admitted.budget held

/-! ## Link loss, warm reset -/

/-- Nothing rings or waits to ring, and every load is at least 1. -/
structure Silent (s : State) : Prop where
  queue : s.ringQueue = []
  list : s.ringList = []
  committed : s.committed = 0
  lines : ∀ p, 1 ≤ (s.line p).load

theorem Silent.budget (h : Silent s) : BudgetHeld s :=
  budgetHeld_iff.mpr ⟨⟨by rw [h.committed, h.list]; rfl, by rw [h.list]; simp, by rw [h.queue]; simp, h.lines⟩,
    .inl (by rw [h.committed]; exact Nat.zero_le _)⟩

theorem Silent.of_tables {t : State} (h : Silent s) (ht : t.tables = s.tables) : Silent t :=
  ⟨(congrArg Tables.ringQueue ht).trans h.queue, (congrArg Tables.ringList ht).trans h.list,
    (congrArg Tables.committed ht).trans h.committed,
    fun p => by rw [State.line_congr (congrArg Tables.lines ht)]; exact h.lines p⟩

theorem Loss.silent {settle : Bool} {t : State} (m : Loss settle s t) (h : Silent s) : Silent t := by
  obtain ⟨queue, list, committed, lines⟩ := h
  cases m with
  | aside k =>
    exact ⟨k.ringQueue.trans queue, List.map_eq_nil_iff.mp (by rw [k.ringList, list]; rfl), k.committed.trans committed,
      fun p => by rw [k.load]; exact lines p⟩
  | endCall => rw [State.endCall, State.settle_eq]; exact ⟨queue, list, committed, lines⟩
  | emptied => exact ⟨queue, list, committed, lines⟩
  | lineLost p =>
    rw [State.quarantine_eq]
    exact ⟨queue, list, committed, fun q => (line_load_withdraw p q).symm ▸ lines q⟩
  | ceased => exact ⟨queue, list, committed, fun q => line_load_ceased _ q _ lines⟩
  | slotEnd _ ht => cases ht <;> exact ⟨queue, list, committed, lines⟩
  | dequeued =>
    have kept (xs : List Waiting) (t : State) (ht : Silent t) : Silent (xs.foldl (fun t w => t.place w.port .lockout) t) := by
      induction xs generalizing t with
      | nil => exact ht
      | cons w xs ih => exact ih _ ⟨ht.queue, ht.list, ht.committed, ht.lines⟩
    obtain ⟨queue, list, committed, lines⟩ := kept s.owq s ⟨queue, list, committed, lines⟩
    exact ⟨queue, list, committed, lines⟩
  | released => exact ⟨queue, list, committed, lines⟩
  | cleared => exact ⟨queue, list, committed, lines⟩
  | placed => exact ⟨queue, list, committed, lines⟩

theorem Losses.silent {settle : Bool} {t : State} (m : Losses settle s.unring t) (h : Ledger s) : Silent t :=
  m.keeps Loss.silent ⟨rfl, rfl, rfl, h.lines⟩

/-! ## Every move -/

theorem line_load_setLine {p : PortNo} {r : LineRecord} (hr : 1 ≤ r.load) (h : ∀ q, 1 ≤ (s.line q).load) (q : PortNo) :
    1 ≤ ((s.setLine p r).line q).load := by
  rw [State.line_setLine]
  split
  · exact hr
  · exact h q

/-- The writes of a line record that place a port with it leave the lists, L and A alone. -/
theorem ringing_ceaseNow (p : PortNo) : SameRinging s (s.ceaseNow p) ∧
    ((∀ q, 1 ≤ (s.line q).load) → ∀ q, 1 ≤ ((s.ceaseNow p).line q).load) := by
  unfold State.ceaseNow
  dsimp only
  have written (h : ∀ q, 1 ≤ (s.line q).load) := line_load_setLine (s := s) (p := p)
    (r := { (s.line p).ceased with damaged := false, withdrawn := false }) (by show 1 ≤ LineRecord.initial.load; decide) h
  split <;> exact ⟨.of_eq rfl rfl rfl rfl, written⟩

theorem ringing_ceaseWithdrawnCall (p : PortNo) : SameRinging s (s.ceaseWithdrawnCall p) ∧
    ((∀ q, 1 ≤ (s.line q).load) → ∀ q, 1 ≤ ((s.ceaseWithdrawnCall p).line q).load) := by
  unfold State.ceaseWithdrawnCall
  dsimp only
  have written (h : ∀ q, 1 ≤ (s.line q).load) := line_load_setLine (s := s) (p := p)
    (r := { s.line p with status := .ceasing, key := none, damaged := false, withdrawn := false }) (h p) h
  split
  · exact ⟨.of_eq rfl rfl rfl rfl, written⟩
  · split <;> exact ⟨.of_eq rfl rfl rfl rfl, written⟩

theorem placeWritten_tables (s : State) (p : PortNo) :
    (s.placeWritten p).lines = s.lines ∧ SameRinging s (s.placeWritten p) := by
  unfold State.placeWritten
  dsimp only
  repeat' split
  all_goals exact ⟨rfl, .of_eq rfl rfl rfl rfl⟩

theorem ringing_writeService (p : PortNo) (st : LineStatus) (c : LineClass) (w : LineWrite) :
    SameRinging s (s.writeService p st c w) ∧
      ((∀ q, 1 ≤ (s.line q).load) → ∀ q, 1 ≤ ((s.writeService p st c w).line q).load) := by
  unfold State.writeService
  obtain ⟨lines, same⟩ := placeWritten_tables ((s.writeLine p ((s.line p).rewritten st c w)).setIndex p (some w.key)) p
  refine ⟨⟨same.queue, same.list, same.committed, same.available⟩, fun h q => ?_⟩
  rw [State.line_congr lines]
  exact line_load_setLine (s := s) (by show 1 ≤ clamp 1 40 w.load; unfold clamp; omega) h q

/-- Every move keeps the ringing budget. -/
theorem Move.budget {t : State} (m : Move s t) (h : BudgetHeld s) : BudgetHeld t := by
  obtain ⟨ledger, within⟩ := budgetHeld_iff.mp h
  have same {t : State} (k : SameRinging s t) (hl : ∀ p, 1 ≤ (t.line p).load) : BudgetHeld t :=
    budgetHeld_iff.mpr ⟨k.ledger ledger hl, k.within within⟩
  have tables {t u : State} (ht : t.tables = u.tables) (hu : BudgetHeld u) : BudgetHeld t :=
    (Parts.of_tables (X := []) (W := []) ht).budget hu
  have left {u : State} (k : SameRinging s u) (hl : ∀ p, 1 ≤ (u.line p).load) (k : Nat) : BudgetHeld (unringing u k) := by
    obtain ⟨ledger', within'⟩ := budgetHeld_iff.mp (same ‹_› hl)
    exact budgetHeld_iff.mpr ⟨ledger_unringing ledger' k,
      within'.fewer ledger' (ledger_unringing ledger' k) List.filter_sublist rfl⟩
  have unchanged {t : State} := SameRinging.of_eq (s := s) (t := t)
  cases m with
  | aside k => exact same ⟨k.ringQueue, k.ringList, k.committed, k.available⟩ fun p => by rw [k.load]; exact ledger.lines p
  | connect => exact same (unchanged rfl rfl rfl rfl) ledger.lines
  | pass a hu ht =>
    have start : Ledger { s with available := a } := ⟨ledger.sum, ledger.ringing, ledger.queued, ledger.lines⟩
    have opened : Ledger _ := SameRinging.ledger ⟨hu.ringQueue, hu.ringList, hu.committed, hu.available⟩ start
      fun p => by rw [hu.load]; exact start.lines p
    exact tables ht (budget_budgetPass opened)
  | place => exact same (unchanged rfl rfl rfl rfl) ledger.lines
  | unqueue => exact same (unchanged rfl rfl rfl rfl) ledger.lines
  | join => exact same (unchanged rfl rfl rfl rfl) ledger.lines
  | bindIdle => exact same (unchanged rfl rfl rfl rfl) ledger.lines
  | bindWaiting => exact same (unchanged rfl rfl rfl rfl) ledger.lines
  | bindFull => exact same (unchanged rfl rfl rfl rfl) ledger.lines
  | @offer p n e b q r _ _ _ _ _ hr =>
    obtain ⟨_, _, load⟩ := hr
    refine budgetHeld_iff.mpr ⟨⟨ledger.sum, ledger.ringing, fun x hx => ?_, ledger.lines⟩, within⟩
    rcases List.mem_append.mp hx with hx | hx
    · exact ledger.queued x hx
    · rw [List.mem_singleton.mp hx, load]
      exact ledger.lines p
  | answer => exact left (unchanged rfl rfl rfl rfl) ledger.lines _
  | clear => exact left (unchanged rfl rfl rfl rfl) ledger.lines _
  | @clearTest e b c q =>
    have cleared := left (u := (s.writeEntry e (some c)).setPort b.port q) (unchanged rfl rfl rfl rfl) ledger.lines b.handle
    exact cleared
  | lineLost =>
    rw [State.quarantine_eq]
    exact same (unchanged rfl rfl rfl rfl) fun p => (line_load_withdraw _ p).symm ▸ ledger.lines p
  | @lineCleared p e b c =>
    refine left (u := ((s.withdraw p).writeEntry e (some c)).quarantine p) ?_ ?_ b.handle
    · rw [State.quarantine_eq]
      exact unchanged rfl rfl rfl rfl
    · rw [State.quarantine_eq]
      exact fun q => (line_load_withdraw p q).symm ▸ ledger.lines q
  | lineFailed hc hp hd => exact (parts_lineFailed (W := []) hc hp hd).budget h
  | requarantine =>
    rw [State.quarantine_eq]
    exact same (unchanged rfl rfl rfl rfl) ledger.lines
  | bindingActions outer e => exact (parts_bindingActions (X := []) (W := []) outer e).budget h
  | slotActions n => exact (parts_slotActions (X := []) (W := []) n).budget h
  | suspect => exact same (unchanged rfl rfl rfl rfl) ledger.lines
  | retireSteps hb =>
    have parts := parts_retireSteps (X := []) (W := []) hb
    exact parts.budget h
  | ceaseNow p => exact same (ringing_ceaseNow p).1 ((ringing_ceaseNow p).2 ledger.lines)
  | ceaseWithdrawnCall p => exact same (ringing_ceaseWithdrawnCall p).1 ((ringing_ceaseWithdrawnCall p).2 ledger.lines)
  | ceasing p =>
    exact same (unchanged rfl rfl rfl rfl)
      (line_load_setLine (s := s) (r := { s.line p with status := .ceasing, damaged := false, withdrawn := false })
        (ledger.lines p) ledger.lines)
  | writeService p c => exact same (ringing_writeService p _ c _).1 ((ringing_writeService p _ c _).2 ledger.lines)
  | release => exact same (unchanged rfl rfl rfl rfl) ledger.lines
  | connectIdle => exact same (unchanged rfl rfl rfl rfl) ledger.lines
  | blockFree => exact same (unchanged rfl rfl rfl rfl) ledger.lines
  | blockSuspect => exact same (unchanged rfl rfl rfl rfl) ledger.lines
  | freeSlot => exact same (unchanged rfl rfl rfl rfl) ledger.lines
  | linkLoss => exact ((losses_linkLoss s).silent ledger).budget
  | warmReset => exact ((losses_warmReset s).silent ledger).budget
  | cleared k => exact Silent.budget ⟨k.ringQueue, k.ringList, k.committed, k.load⟩

/-- Settles O57: a step is a run of moves, and each keeps the ledger and L within A. -/
theorem budgetIsKept : Obligations.BudgetIsKept := by
  intro s t h hs
  exact Moves.keeps Move.budget (moves_step hs) h

end Sys2Proof.Machine
end

section
/-!
PROOFS. The key index, the withdrawn records and the unfed ports under every part and every move (LinesAndPortsAgree).
-/
namespace Sys2Proof.Machine

open Sys2Proof.Safety

variable {s : State}

/-- The key that the index must hold for a record (R4). -/
def LineRecord.indexed (r : LineRecord) : Option Nat := if r.withdrawn = true ∨ r.status = .vacant then none else r.key

/-- The index holds the keys of the records in use that are not VACANT, each once (R4), a port in QUARANTINE has its
record withdrawn (R180), and an unfed port is at rest (R31). -/
structure Kept (s : State) : Prop where
  index : ∀ p, s.indexKey p = (s.line p).indexed
  keys : ∀ p q k, s.indexKey p = some k → s.indexKey q = some k → p = q
  quarantined : ∀ p, (s.port p).sup = .quarantine → (s.line p).withdrawn = true
  rests : ∀ p, (s.port p).Rests

theorem fed_eq_false {st : SupState} : st.fed = false ↔ st = .vacant ∨ st = .parked := by cases st <;> simp [SupState.fed]

theorem kept_iff : Kept s ↔ IndexExact s ∧ PortsPlaced s := by
  constructor
  · exact fun ⟨h1, h2, h3, h4⟩ => ⟨⟨h1, h2⟩, fun p => ⟨h3 p, fun h => h4 p (fed_eq_false.mpr h)⟩⟩
  · exact fun ⟨⟨h1, h2⟩, h⟩ => ⟨h1, h2, fun p => (h p).1, fun p hf => (h p).2 (fed_eq_false.mp hf)⟩

/-- What the promise looks at. -/
theorem Kept.congr {t : State} (h : Kept s) (hk : t.keyIndex = s.keyIndex)
    (hl : ∀ p, (t.line p).indexed = (s.line p).indexed ∧ (t.line p).withdrawn = (s.line p).withdrawn)
    (hs : ∀ p, (t.port p).sup = (s.port p).sup) (hr : ∀ p, (s.port p).Rests → (t.port p).Rests) : Kept t where
  index p := by rw [State.indexKey_congr hk, (hl p).1]; exact h.index p
  keys p q k hp hq := by rw [State.indexKey_congr hk] at hp hq; exact h.keys p q k hp hq
  quarantined p hp := by rw [(hl p).2]; exact h.quarantined p (hs p ▸ hp)
  rests p := hr p (h.rests p)

theorem Kept.of_same {t : State} (h : Kept s) (hk : t.keyIndex = s.keyIndex) (hl : t.lines = s.lines)
    (hp : t.ports = s.ports) : Kept t :=
  h.congr hk (fun p => by rw [State.line_congr hl]; exact ⟨rfl, rfl⟩) (fun p => by rw [State.port_congr hp])
    fun p hr => by rw [State.port_congr hp]; exact hr

theorem Kept.alike {t : State} (h : Kept s) (k : Alike s t) : Kept t :=
  h.congr k.keyIndex (fun p => by simp only [LineRecord.indexed, k.status, k.withdrawn, k.key]; trivial) k.sup k.rests

/-- A port is placed. -/
theorem Kept.setPort (h : Kept s) {p : PortNo} {q : Port} (hr : q.Rests)
    (hq : q.sup = .quarantine → (s.line p).withdrawn = true) : Kept (s.setPort p q) where
  index := h.index
  keys := h.keys
  quarantined r hs := by
    rw [State.port_setPort] at hs
    split at hs
    · next hp => rw [hp]; exact hq hs
    · exact h.quarantined r hs
  rests r := by
    rw [State.port_setPort]
    split
    · exact hr
    · exact h.rests r

/-- A record is written and its key indexed. -/
theorem Kept.setLine (h : Kept s) {p : PortNo} {r : LineRecord} {k : Option Nat} (hk : r.indexed = k)
    (hu : ∀ n q, k = some n → s.indexKey q = some n → q = p)
    (hq : (s.port p).sup = .quarantine → r.withdrawn = true) : Kept ((s.setLine p r).setIndex p k) := by
  have index (q : PortNo) : ((s.setLine p r).setIndex p k).indexKey q = if q = p then k else s.indexKey q :=
    State.indexKey_setIndex (s.setLine p r) p q k
  have line (q : PortNo) : ((s.setLine p r).setIndex p k).line q = if q = p then r else s.line q :=
    State.line_setLine s p q r
  constructor
  case index =>
    intro q
    rw [index, line]
    split
    · exact hk.symm
    · exact h.index q
  case keys =>
    intro q q' n hn hn'
    rw [index] at hn hn'
    split at hn <;> split at hn'
    · next hp hp' => rw [hp, hp']
    · next hp _ => rw [hp]; exact (hu n q' hn hn').symm
    · next _ hp => rw [hp]; exact hu n q hn' hn
    · exact h.keys q q' n hn hn'
  case quarantined =>
    intro q hs
    rw [line]
    split
    · next hp => exact hq (hp ▸ hs)
    · exact h.quarantined q hs
  case rests => exact h.rests

/-- A record is written with the key it has in the index. -/
theorem Kept.writeRecord (h : Kept s) {p : PortNo} {r : LineRecord} (hk : r.indexed = s.indexKey p)
    (hq : (s.port p).sup = .quarantine → r.withdrawn = true) : Kept (s.setLine p r) := by
  have written := h.setLine (p := p) hk (fun n q hn hq => h.keys q p n hq hn) hq
  refine written.of_same ?_ rfl rfl
  show s.keyIndex = s.keyIndex.set p (s.indexKey p)
  exact (Vector.set_getElem_self _).symm

theorem kept_withdraw (h : Kept s) (p : PortNo) : Kept (s.withdraw p) :=
  (h.setLine (p := p) (r := { s.line p with withdrawn := true }) (k := none) (by simp [LineRecord.indexed]) nofun
    fun _ => rfl).of_same rfl rfl rfl

theorem line_withdraw (p : PortNo) : ((s.withdraw p).line p).withdrawn = true := by
  show ((s.setLine p { s.line p with withdrawn := true }).line p).withdrawn = true
  rw [State.line_setLine, if_pos rfl]

theorem quarantined_rests (q : Port) (h : q.Rests) : (quarantined q).Rests := by
  intro hf
  unfold quarantined at hf ⊢
  split at hf
  · next ht => rw [if_pos ht]; exact h hf
  · split at hf <;> cases hf

theorem kept_quarantine (h : Kept s) {p : PortNo} (hw : (s.line p).withdrawn = true) : Kept (s.quarantine p) := by
  rw [State.quarantine_eq]
  exact h.setPort (quarantined_rests _ (h.rests p)) fun _ => hw

theorem settled_rests {q : Port} (h : q.Rests) : (settled q).Rests := by
  unfold settled idled
  split
  · split
    · exact fun hf => by cases hf
    · split
      · exact fun _ => ⟨rfl, rfl⟩
      · exact fun hf => by cases hf
  · exact h

theorem settled_quarantine {q : Port} (h : (settled q).sup = .quarantine) : q.sup = .quarantine := by
  unfold settled idled at h
  split at h
  · split at h
    · cases h
    · split at h <;> cases h
  · exact h

theorem kept_settle (h : Kept s) (p : PortNo) : Kept (s.settle p) := by
  rw [State.settle_eq]
  exact h.setPort (settled_rests (h.rests p)) fun hq => h.quarantined p (settled_quarantine hq)

theorem vacated_rests {q : Port} : (vacated q).Rests := by
  unfold vacated
  split
  · next ht => exact fun hf => by simp [ht, SupState.fed] at hf
  · exact fun _ => ⟨rfl, rfl⟩

theorem vacated_quarantine {q : Port} : (vacated q).sup ≠ .quarantine := by
  unfold vacated
  split
  · next ht => simp [ht]
  · simp

/-- A line is ceased, its port vacated (R13). -/
theorem kept_ceased (h : Kept s) (p : PortNo) (total : Nat) : Kept (ceased s p total) := by
  have vacated : Kept (s.setPort p (vacated (s.port p))) :=
    h.setPort vacated_rests fun hq => absurd hq vacated_quarantine
  refine (vacated.setLine (p := p) (r := { LineRecord.initial with total := total }) (k := none) ?_ nofun ?_).of_same
    rfl rfl rfl
  · simp [LineRecord.indexed, LineRecord.initial]
  · rw [State.port_setPort, if_pos rfl]
    exact fun hq => absurd hq vacated_quarantine

theorem kept_slotEnd (h : Kept s) {n : SlotNo} {t : State} (ht : SlotEnd s n t) : Kept t := by
  cases ht <;> exact h.of_same rfl rfl rfl

theorem kept_endCall (h : Kept s) (e : EntryNo) (b : Binding) : Kept (s.endCall e b) :=
  kept_settle (s := s.writeEntry e none) (h.of_same rfl rfl rfl) b.port

/-! ## Parts and losses -/

/-- Inside a move the records whose quarantine is still to come are withdrawn. -/
def Stage.Kept (a : Stage) : Prop := Machine.Kept a.state ∧ ∀ p ∈ a.withdrawing, (a.state.line p).withdrawn = true

theorem Part.kept {a b : Stage} (m : Part a b) (h : a.Kept) : b.Kept := by
  obtain ⟨kept, withdrawing⟩ := h
  cases m with
  | aside k => exact ⟨kept.alike k, fun p hp => (k.withdrawn p).trans (withdrawing p hp)⟩
  | leave => exact ⟨kept.of_same rfl rfl rfl, withdrawing⟩
  | leaveSlot => exact ⟨kept.of_same rfl rfl rfl, withdrawing⟩
  | slotLost => exact ⟨kept.of_same rfl rfl rfl, withdrawing⟩
  | dropRinging => exact ⟨kept.of_same rfl rfl rfl, withdrawing⟩
  | dropQueued => exact ⟨kept.of_same rfl rfl rfl, withdrawing⟩
  | shed => exact ⟨kept.of_same rfl rfl rfl, withdrawing⟩
  | startRing => exact ⟨kept.of_same rfl rfl rfl, withdrawing⟩
  | endCall _ ht =>
    refine ⟨kept_endCall (kept_slotEnd kept ht) _ _, ?_⟩
    rw [State.endCall, State.settle_eq]
    cases ht <;> exact withdrawing
  | @lineLost _ _ s p =>
    refine ⟨kept_quarantine (kept_withdraw kept p) (line_withdraw p), fun q hq => ?_⟩
    rw [State.quarantine_eq]
    show ((s.setLine p { s.line p with withdrawn := true }).line q).withdrawn = true
    rw [State.line_setLine]
    split
    · rfl
    · exact withdrawing q hq
  | @ceased _ _ s p total hc =>
    refine ⟨kept_ceased kept p total, fun q hq => ?_⟩
    have other : q ≠ p := by
      rintro rfl
      exact absurd (withdrawing q hq) (by rw [hc.2]; decide)
    show ((s.setLine p { LineRecord.initial with total := total }).line q).withdrawn = true
    rw [State.line_setLine, if_neg other]
    exact withdrawing q hq
  | @withdraw _ s p =>
    refine ⟨kept_withdraw kept p, fun q hq => ?_⟩
    show ((s.setLine p { s.line p with withdrawn := true }).line q).withdrawn = true
    rw [State.line_setLine]
    split
    · rfl
    · next other => exact withdrawing q ((List.mem_cons.mp hq).resolve_left other)
  | quarantine =>
    refine ⟨kept_quarantine kept (withdrawing _ List.mem_cons_self), ?_⟩
    rw [State.quarantine_eq]
    exact fun q hq => withdrawing q (List.mem_cons_of_mem _ hq)

theorem Parts.kept {t : State} (m : Parts ⟨[], [], s⟩ ⟨[], [], t⟩) (h : Kept s) : Kept t :=
  (m.keeps Part.kept (⟨h, by simp⟩ : (⟨[], [], s⟩ : Stage).Kept)).1

theorem kept_place (h : Kept s) (p : PortNo) {st : SupState} (hq : st = .quarantine → (s.line p).withdrawn = true) :
    Kept (s.place p st) := h.setPort (place_rests _ _) fun hs => hq (by rwa [place_sup] at hs)

theorem returned_quarantine {st : SupState} {w : Bool} (h : (w = true ∧ st = .quarantine) ∨
    (w = false ∧ st ∈ [SupState.vacant, .parked, .lockout, .idle])) (hq : st = .quarantine) : w = true := by
  rcases h with ⟨hw, _⟩ | ⟨_, hs⟩
  · exact hw
  · rw [hq] at hs; simp at hs

theorem Loss.kept {settle : Bool} {t : State} (m : Loss settle s t) (h : Kept s) : Kept t := by
  cases m with
  | aside k => exact h.alike k
  | endCall => exact kept_endCall h _ _
  | emptied => exact h.of_same rfl rfl rfl
  | lineLost p => exact kept_quarantine (kept_withdraw h p) (line_withdraw p)
  | ceased total => exact kept_ceased h _ total
  | slotEnd _ ht => exact kept_slotEnd h ht
  | dequeued =>
    have locked (xs : List Waiting) (t : State) (ht : Kept t) : Kept (xs.foldl (fun t w => t.place w.port .lockout) t) := by
      induction xs generalizing t with
      | nil => exact ht
      | cons w xs ih => exact ih _ (kept_place ht w.port nofun)
    exact (locked s.owq s h).of_same rfl rfl rfl
  | released p _ _ hq hr =>
    exact Kept.setPort (s := { s with bus := none }) (h.of_same rfl rfl rfl) hr (returned_quarantine hq)
  | cleared => exact h.of_same rfl rfl rfl
  | placed p _ hq hr => exact h.setPort hr (returned_quarantine hq)

/-! ## Moves -/

theorem Port.Free.quarantine {q : Port} (h : q.Free) : q.sup ≠ .quarantine := by
  obtain ⟨hs, _⟩ := h
  intro hq
  rw [hq] at hs
  simp at hs

theorem kept_free (h : Kept s) (p : PortNo) {q : Port} (hq : q.Free) : Kept (s.setPort p q) :=
  h.setPort hq.2 fun hs => absurd hs hq.quarantine

/-- A port in a fed state other than QUARANTINE. -/
theorem kept_fed (h : Kept s) (p : PortNo) {q : Port} (hf : q.sup.fed = true) (hq : q.sup ≠ .quarantine) :
    Kept (s.setPort p q) := h.setPort (rests_fed hf) fun hs => absurd hs hq

/-- A cease at once leaves the line as a deferred one that completes (R13, R15). -/
theorem ceaseNow_eq (s : State) (p : PortNo) : s.ceaseNow p = ceased s p (s.line p).total := by
  have hp : (((s.leaveQueue p).vacate p).mark p false).port p = { s.port p with parkPending := false } := by
    simp [State.mark, State.vacate, State.leaveQueue, State.writeLine, State.setLine, State.setIndex, State.port,
      State.setPort]
  unfold State.ceaseNow
  dsimp only
  rw [hp]
  unfold ceased vacated
  by_cases ht : (s.port p).sup = .test
  · rw [if_pos (by exact ht), if_pos ht]
    rfl
  · rw [if_neg (by exact ht), if_neg ht, State.place, hp, place_unfed _ rfl]
    simp [State.mark, State.vacate, State.leaveQueue, State.writeLine, State.setLine, State.setIndex, State.setPort,
      LineRecord.ceased, LineRecord.initial, State.line]

theorem kept_mark (h : Kept s) (p : PortNo) (b : Bool) : Kept (s.mark p b) :=
  h.setPort (h.rests p) (h.quarantined p)

/-- A port marked and placed outside QUARANTINE, its record then written under the key the index has for it. -/
theorem kept_marked (h : Kept s) (p : PortNo) (b : Bool) {st : SupState} (hs : st ≠ .quarantine) :
    Kept ((s.mark p b).place p st) ∧ (((s.mark p b).place p st).port p).sup ≠ .quarantine := by
  refine ⟨kept_place (kept_mark h p b) p fun hq => absurd hq hs, ?_⟩
  rw [State.place, State.port_setPort, if_pos rfl, place_sup]
  exact hs

theorem kept_ceaseWithdrawnCall (h : Kept s) {p : PortNo} (hw : (s.line p).withdrawn = true) :
    Kept (s.ceaseWithdrawnCall p) := by
  have write {t : State} (ht : Kept t) (hk : t.indexKey p = s.indexKey p) (hq : (t.port p).sup ≠ .quarantine) :
      Kept (t.setLine p { s.line p with status := .ceasing, key := none, damaged := false, withdrawn := false }) := by
    refine ht.writeRecord ?_ fun hs => absurd hs hq
    rw [hk, h.index]
    simp [LineRecord.indexed, hw]
  unfold State.ceaseWithdrawnCall
  dsimp only
  split
  · next ht =>
    have test : (s.port p).sup = .test := ht
    exact write h rfl (by simp [test])
  · split
    · generalize (s.writeLine p { s.line p with status := .ceasing, key := none }).parkable p = b
      obtain ⟨kept, sup⟩ := kept_marked h p b (st := .lockout) nofun
      exact (write kept rfl sup).of_same rfl rfl rfl
    · generalize (s.writeLine p { s.line p with status := .ceasing, key := none }).parkable p = b
      obtain ⟨kept, sup⟩ := kept_marked h p false (st := if b then .parked else .idle) (by split <;> nofun)
      exact (write kept rfl sup).of_same rfl rfl rfl

/-- The placement that a write of a record in service makes leaves no port in QUARANTINE (R11). -/
theorem kept_placeWritten {p : PortNo} {k : Option Nat} {r : LineRecord} (h : Kept s) (hk : r.indexed = k)
    (hu : ∀ n q, k = some n → s.indexKey q = some n → q = p) :
    Kept (((s.setLine p r).setIndex p k).placeWritten p) := by
  have write {t : State} (ht : Kept t) (hi : t.keyIndex = s.keyIndex) (hq : (t.port p).sup ≠ .quarantine) :
      Kept ((t.setLine p r).setIndex p k) :=
    ht.setLine hk (fun n q hn hq => hu n q hn (by rwa [State.indexKey_congr hi] at hq)) fun hs => absurd hs hq
  unfold State.placeWritten
  dsimp only
  generalize ((s.setLine p r).setIndex p k).parkable p = b
  split
  · next ht =>
    have test : (s.port p).sup = .test := ht
    exact write h rfl (by simp [test])
  · next hl =>
    have lockout : (s.port p).sup = .lockout := hl
    have marked : ((s.mark p b).port p).sup ≠ .quarantine := by
      rw [State.mark, State.port_setPort, if_pos rfl]
      simp [lockout]
    exact (write (kept_mark h p b) rfl marked).of_same rfl rfl rfl
  · split
    · obtain ⟨kept, sup⟩ := kept_marked h p b (st := .lockout) nofun
      exact (write kept rfl sup).of_same rfl rfl rfl
    · obtain ⟨kept, sup⟩ := kept_marked h p false (st := if b then .parked else .idle) (by split <;> nofun)
      exact (write kept rfl sup).of_same rfl rfl rfl
  · obtain ⟨kept, sup⟩ := kept_marked h p false (st := if b then .parked else .idle) (by split <;> nofun)
    exact (write kept rfl sup).of_same rfl rfl rfl

theorem kept_writeService (h : Kept s) {p : PortNo} {st : LineStatus} (c : LineClass) {w : LineWrite}
    (hst : st ≠ .vacant) (hk : ∀ q, s.portOfKey w.key = some q → q = p) : Kept (s.writeService p st c w) := by
  refine kept_placeWritten h ?_ fun n q hn hq => ?_
  · simp [LineRecord.indexed, LineRecord.rewritten, hst]
  · cases hn
    have found : (s.portOfKey w.key).isSome := by
      rw [State.portOfKey, List.find?_isSome]
      exact ⟨q, List.mem_finRange q, by simpa using hq⟩
    obtain ⟨r, hr⟩ := Option.isSome_iff_exists.mp found
    have same : s.indexKey r = some w.key := by simpa using List.find?_some hr
    rw [h.keys q r _ hq same]
    exact hk r hr

theorem kept_cleared (h : Cleared s) : Kept s where
  index p := by rw [h.keyIndex]; simp [LineRecord.indexed, h.status]
  keys p q k hp := by rw [h.keyIndex] at hp; cases hp
  quarantined p hs := by
    rcases h.ports p with ⟨hv, _⟩ | ⟨_, hw⟩
    · rw [hv] at hs; cases hs
    · exact hw
  rests p := by
    rcases h.ports p with ⟨_, hr, _⟩ | ⟨hs, _⟩
    · exact hr
    · exact rests_fed (by rw [hs]; rfl)

theorem Move.kept {t : State} (m : Move s t) (h : Kept s) : Kept t := by
  cases m with
  | aside k => exact h.alike k
  | connect => exact h.of_same rfl rfl rfl
  | @pass _ a u hu ht =>
    have opened : Kept u := (h.of_same (t := { s with available := a }) rfl rfl rfl).alike hu
    exact (parts_budgetPass.kept opened).alike (.of_tables ht)
  | place p _ hq => exact kept_free h p hq
  | unqueue p _ hq => exact kept_free (s := s.leaveQueue p) (h.of_same rfl rfl rfl) p hq
  | join p _ _ hq => exact (kept_fed h p (by rw [hq]; rfl) (by simp [hq])).of_same rfl rfl rfl
  | @bindIdle p _ _ _ q _ _ _ _ hq => exact (kept_fed (q := q) h p (by rw [hq]; rfl) (by simp [hq])).of_same rfl rfl rfl
  | @bindWaiting p _ _ _ q _ _ _ _ hq => exact (kept_fed (q := q) h p (by rw [hq]; rfl) (by simp [hq])).of_same rfl rfl rfl
  | bindFull => exact h.of_same rfl rfl rfl
  | @offer p _ _ _ q _ _ _ _ _ hq => exact (kept_fed (q := q) h p (by rw [hq]; rfl) (by simp [hq])).of_same rfl rfl rfl
  | answer => exact h.of_same rfl rfl rfl
  | @clear _ b _ _ _ _ _ _ hq => exact (kept_free h b.port hq).of_same rfl rfl rfl
  | @clearTest _ b _ _ _ _ _ _ _ _ _ hq => exact (kept_fed h b.port (by rw [hq]; rfl) (by simp [hq])).of_same rfl rfl rfl
  | lineLost p => exact kept_quarantine (kept_withdraw h p) (line_withdraw p)
  | @lineCleared p e _ c =>
    have written : Kept ((s.withdraw p).writeEntry e (some c)) := (kept_withdraw h p).of_same rfl rfl rfl
    exact (kept_quarantine written (line_withdraw p)).of_same rfl rfl rfl
  | lineFailed hc hp hd => exact (parts_lineFailed hc hp hd).kept h
  | requarantine p _ hw => exact kept_quarantine h hw
  | bindingActions outer e => exact (parts_bindingActions outer e).kept h
  | slotActions n => exact (parts_slotActions n).kept h
  | suspect => exact h.of_same rfl rfl rfl
  | retireSteps hb => exact (parts_retireSteps hb).kept h
  | ceaseNow p =>
    rw [ceaseNow_eq]
    exact kept_ceased h p _
  | ceaseWithdrawnCall p hw => exact kept_ceaseWithdrawnCall h hw
  | ceasing p hw hs =>
    refine h.writeRecord ?_ fun hq => ?_
    · rw [h.index]
      simp [LineRecord.indexed, hw, hs]
    · rw [h.quarantined p hq] at hw
      cases hw
  | writeService p c _ _ hst hk => exact kept_writeService h c hst hk
  | release p _ hq hr =>
    exact Kept.setPort (s := { s with bus := none }) (h.of_same rfl rfl rfl) hr (returned_quarantine hq)
  | connectIdle p _ _ _ hq => exact (kept_fed h p (by rw [hq]; rfl) (by simp [hq])).of_same rfl rfl rfl
  | blockFree => exact h.of_same rfl rfl rfl
  | blockSuspect => exact h.of_same rfl rfl rfl
  | freeSlot => exact h.of_same rfl rfl rfl
  | linkLoss => exact (losses_linkLoss s).keeps Loss.kept (h.of_same rfl rfl rfl)
  | warmReset => exact (losses_warmReset s).keeps Loss.kept (h.of_same rfl rfl rfl)
  | cleared k => exact kept_cleared k

/-- Settles O58: a step is a run of moves, and each keeps the index, the withdrawn records and the unfed ports. -/
theorem linesAndPortsAgree : Obligations.LinesAndPortsAgree := by
  intro s t index ports hs
  exact kept_iff.mp (Moves.keeps Move.kept (moves_step hs) (kept_iff.mpr ⟨index, ports⟩))

end Sys2Proof.Machine
end

section
/-!
PROOFS. The handle of a new binding (HandlesAreChosen).
-/
namespace Sys2Proof.Machine

open Sys2Proof.Safety

variable {s : State}

/-- The value a number of places after a handle, 255 being followed by 1 (R67). -/
def handleAfter (h j : Nat) : Nat := (h + j - 1) % 255 + 1

theorem handleAfter_zero {h : Nat} (h1 : 1 ≤ h) (h2 : h ≤ 255) : handleAfter h 0 = h := by
  unfold handleAfter
  omega

theorem nextOf_range {h : Nat} (h1 : 1 ≤ h) (h2 : h ≤ 255) : 1 ≤ nextOf h ∧ nextOf h ≤ 255 := by
  unfold nextOf
  split <;> omega

theorem handleAfter_nextOf {h : Nat} (h1 : 1 ≤ h) (h2 : h ≤ 255) (j : Nat) :
    handleAfter (nextOf h) j = handleAfter h (j + 1) := by
  unfold handleAfter nextOf
  split
  · congr 2
    omega
  · obtain rfl : h = 255 := by omega
    rw [show 255 + (j + 1) - 1 = (1 + j - 1) + 255 by omega, Nat.add_mod_right]

/-- The search stops at the first value that is not live. -/
theorem searchHandle_eq {fuel : Nat} {h k : Nat} (h1 : 1 ≤ h) (h2 : h ≤ 255) (hk : k < fuel)
    (free : s.byHandle (handleAfter h k) = none) (live : ∀ j < k, s.byHandle (handleAfter h j) ≠ none) :
    s.searchHandle fuel h = handleAfter h k := by
  induction fuel generalizing h k with
  | zero => omega
  | succ fuel ih =>
    have zero := handleAfter_zero h1 h2
    unfold State.searchHandle
    cases k with
    | zero =>
      rw [if_neg, zero]
      rw [← zero, free]
      simp
      omega
    | succ k =>
      have first : (s.byHandle h).isSome := by
        have := live 0 (by omega)
        rw [zero] at this
        exact Option.isSome_iff_ne_none.mpr this
      obtain ⟨n1, n2⟩ := nextOf_range h1 h2
      rw [if_pos (.inr first), ← handleAfter_nextOf h1 h2]
      refine ih n1 n2 (by omega) (by rw [handleAfter_nextOf h1 h2]; exact free) fun j hj => ?_
      rw [handleAfter_nextOf h1 h2]
      exact live (j + 1) (by omega)

/-- Sixteen values in a row are not all handles of fifteen entries. -/
theorem exists_handle_free (s : State) {h : Nat} (h1 : 1 ≤ h) : ∃ k : Fin 16, s.byHandle (handleAfter h k.val) = none := by
  refine Classical.byContradiction fun all => ?_
  have found (j : Fin 16) : ∃ e b, s.byHandle (handleAfter h j.val) = some (e, b) := by
    obtain ⟨⟨e, b⟩, he⟩ := Option.ne_none_iff_exists'.mp (fun none => all ⟨j, none⟩)
    exact ⟨e, b, he⟩
  obtain ⟨entry, found⟩ := Classical.skolem.mp found
  obtain ⟨binding, named⟩ := Classical.skolem.mp found
  have handle (j : Fin 16) : (binding j).handle = handleAfter h j.val := by
    simpa using (findBinding_found (named j)).2
  have apart (i j : Fin 16) (same : entry i = entry j) : i = j := by
    have hi := (findBinding_found (named i)).1
    have hj := (findBinding_found (named j)).1
    rw [same, hj] at hi
    have equal : handleAfter h i.val = handleAfter h j.val := by
      rw [← handle i, ← handle j, Option.some.inj hi]
    refine Fin.ext ?_
    unfold handleAfter at equal
    omega
  have few := (nodup_map apart (List.nodup_finRange 16)).length_le_of_subset fun e _ => List.mem_finRange e
  rw [List.length_map, List.length_finRange, List.length_finRange] at few
  omega

/-- Settles O20: of the sixteen values from the counter on, the search takes the first that is not live. -/
theorem handlesAreChosen : Obligations.HandlesAreChosen := by
  intro s h1 h2
  have exist : ∃ k, k < 16 ∧ s.byHandle (handleAfter s.nextHandle k) = none := by
    obtain ⟨k, hk⟩ := exists_handle_free s h1
    exact ⟨k.val, k.isLt, hk⟩
  obtain ⟨k, ⟨hk, free⟩, first⟩ := exists_least exist
  have live (j : Nat) (hj : j < k) : s.byHandle (handleAfter s.nextHandle j) ≠ none :=
    fun none => first j hj ⟨by omega, none⟩
  have chosen : s.chooseHandle = handleAfter s.nextHandle k := searchHandle_eq h1 h2 hk free live
  exact ⟨⟨k, hk⟩, chosen, chosen ▸ free, fun j hj => live j.val hj⟩

end Sys2Proof.Machine
end

section
/-!
PROOFS. The free pool, the slots and the bindings under every part and every move (SlotsAndBindingsAgree).
-/
namespace Sys2Proof.Machine

open Sys2Proof.Safety

variable {s t : State} {X : List EntryNo}

/-- The handle and the slot of the call in an entry. -/
def State.heldBy (s : State) (e : EntryNo) : Option (Nat × SlotNo) := (s.entry e).binding.map fun b => (b.handle, b.slot)

theorem heldBy_some {e : EntryNo} {b : Binding} (h : (s.entry e).binding = some b) :
    s.heldBy e = some (b.handle, b.slot) := by rw [State.heldBy, h]; rfl

/-- The pool holds each FREE slot once and no other (R50); the calls hold distinct BOUND slots that name their distinct
handles of 1 to 255 (R51, R67). The slot of a call that is being ended need only be out of the pool. -/
structure Exact (X : List EntryNo) (s : State) : Prop where
  nodup : s.pool.Nodup
  pool : ∀ n, n ∈ s.pool ↔ (s.slot n).state = .free
  held : ∀ e ∉ X, ∀ h n, s.heldBy e = some (h, n) → (s.slot n).state = .bound ∧ (s.slot n).handle = h
  leaving : ∀ e ∈ X, ∀ h n, s.heldBy e = some (h, n) → (s.slot n).state ≠ .free
  range : ∀ e h n, s.heldBy e = some (h, n) → 1 ≤ h ∧ h ≤ 255
  handles : ∀ e f h n m, s.heldBy e = some (h, n) → s.heldBy f = some (h, m) → e = f
  slots : ∀ e f h k n, s.heldBy e = some (h, n) → s.heldBy f = some (k, n) → e = f
  next : 1 ≤ s.nextHandle ∧ s.nextHandle ≤ 255

/-- Every BOUND slot is held (R51). -/
def Full (s : State) : Prop := ∀ n, (s.slot n).state = .bound → ∃ e h, s.heldBy e = some (h, n)

theorem exact_iff : Exact [] s ↔ PoolExact s ∧ BindingsExact s := by
  have call {e : EntryNo} {h : Nat} {n : SlotNo} (hh : s.heldBy e = some (h, n)) :
      ∃ b, (s.entry e).binding = some b ∧ b.handle = h ∧ b.slot = n := by
    simpa [State.heldBy] using hh
  constructor
  · intro x
    refine ⟨⟨x.nodup, x.pool⟩, fun e b hb => ?_, fun e f b hb c hc same => ?_, x.next⟩
    · obtain ⟨bound, named⟩ := x.held e List.not_mem_nil _ _ (heldBy_some hb)
      exact ⟨bound, named, x.range e _ _ (heldBy_some hb)⟩
    · exact x.handles e f _ _ _ (heldBy_some hb) (same ▸ heldBy_some hc)
  · rintro ⟨⟨nodup, pool⟩, held, handles, next⟩
    refine ⟨nodup, pool, fun e _ h n hh => ?_, nofun, fun e h n hh => ?_, fun e f h n m he hf => ?_,
      fun e f h k n he hf => ?_, next⟩
    · obtain ⟨b, hb, rfl, rfl⟩ := call hh
      obtain ⟨bound, named, _⟩ := held e b hb
      exact ⟨bound, named⟩
    · obtain ⟨b, hb, rfl, rfl⟩ := call hh
      obtain ⟨_, _, range⟩ := held e b hb
      exact range
    · obtain ⟨b, hb, rfl, rfl⟩ := call he
      obtain ⟨c, hc, same, _⟩ := call hf
      exact handles e f b hb c hc same.symm
    · obtain ⟨b, hb, rfl, rfl⟩ := call he
      obtain ⟨c, hc, rfl, same⟩ := call hf
      obtain ⟨_, nb, _⟩ := held e b hb
      obtain ⟨_, nc, _⟩ := held f c hc
      exact handles e f b hb c hc (nb.symm.trans ((congrArg (fun n => (s.slot n).handle) same.symm).trans nc))

theorem full_iff (x : Exact [] s) : Full s ↔ SlotsHeld s := by
  constructor
  · intro full n hn
    obtain ⟨e, h, hh⟩ := full n hn
    obtain ⟨b, hb, heq⟩ : ∃ b, (s.entry e).binding = some b ∧ b.slot = n := by
      obtain ⟨b, hb, _, hs⟩ : ∃ b, (s.entry e).binding = some b ∧ b.handle = h ∧ b.slot = n := by
        simpa [State.heldBy] using hh
      exact ⟨b, hb, hs⟩
    exact ⟨e, ⟨b, hb, heq⟩, fun f c hc same => x.slots f e _ _ _ (heldBy_some hc) (same ▸ hh)⟩
  · intro held n hn
    obtain ⟨e, ⟨b, hb, rfl⟩, _⟩ := held n hn
    exact ⟨e, b.handle, heldBy_some hb⟩

/-- What the promise looks at is the same. -/
structure SameHeld (s t : State) : Prop where
  calls : ∀ e, t.heldBy e = s.heldBy e
  slotState : ∀ n, (t.slot n).state = (s.slot n).state
  slotHandle : ∀ n, (t.slot n).handle = (s.slot n).handle
  pool : t.pool = s.pool
  next : t.nextHandle = s.nextHandle

theorem SameHeld.of_eq (he : t.entries = s.entries) (hs : t.slots = s.slots) (hp : t.pool = s.pool)
    (hn : t.nextHandle = s.nextHandle) : SameHeld s t :=
  ⟨fun e => by unfold State.heldBy; rw [State.entry_congr he], fun n => by rw [State.slot_congr hs],
    fun n => by rw [State.slot_congr hs], hp, hn⟩

theorem SameHeld.of_alike (k : Alike s t) : SameHeld s t where
  calls e := by
    have idents (u : State) : u.heldBy e =
        ((u.entry e).binding.map Binding.ident).map fun i : Nat × PortNo × SlotNo × Phase => (i.1, i.2.2.1) := by
      unfold State.heldBy
      rw [Option.map_map]
      rfl
    rw [idents, idents, k.bindings]
  slotState := k.slotState
  slotHandle := k.slotHandle
  pool := k.pool
  next := k.nextHandle

theorem SameHeld.exact (k : SameHeld s t) (x : Exact X s) : Exact X t := by
  obtain ⟨calls, state, handle, pool, next⟩ := k
  constructor
  case nodup => rw [pool]; exact x.nodup
  case pool => intro n; rw [pool, state]; exact x.pool n
  case held => intro e he h n; rw [calls, state, handle]; exact x.held e he h n
  case leaving => intro e he h n; rw [calls, state]; exact x.leaving e he h n
  case range => intro e h n; rw [calls]; exact x.range e h n
  case handles => intro e f h n m; rw [calls, calls]; exact x.handles e f h n m
  case slots => intro e f h k n; rw [calls, calls]; exact x.slots e f h k n
  case next => rw [next]; exact x.next

theorem SameHeld.full (k : SameHeld s t) (h : Full s) : Full t := by
  intro n hn
  obtain ⟨e, a, ha⟩ := h n (k.slotState n ▸ hn)
  exact ⟨e, a, (k.calls e).trans ha⟩

theorem heldBy_writeEntry (e f : EntryNo) (b : Option Binding) :
    (s.writeEntry e b).heldBy f = if f = e then b.map (fun b => (b.handle, b.slot)) else s.heldBy f := by
  unfold State.heldBy
  rw [State.writeEntry, State.entry_setEntry]
  split <;> rfl

/-- A call goes on in another phase. -/
theorem sameHeld_writeEntry {e : EntryNo} {b c : Binding} (h : (s.entry e).binding = some b) (hc : SameCall b c) :
    SameHeld s (s.writeEntry e (some c)) := by
  obtain ⟨handle, _, slot⟩ := hc
  refine ⟨fun f => ?_, fun _ => rfl, fun _ => rfl, rfl, rfl⟩
  rw [heldBy_writeEntry]
  split
  · next he => rw [he, heldBy_some h, Option.map_some, handle, slot]
  · rfl

/-! ## Calls that end, slots that are written -/

/-- A call begins to end. -/
theorem Exact.push (x : Exact X s) (e : EntryNo) : Exact (e :: X) s where
  nodup := x.nodup
  pool := x.pool
  held f hf := x.held f fun hm => hf (List.mem_cons_of_mem _ hm)
  leaving f hf h n hh := by
    by_cases hm : f ∈ X
    · exact x.leaving f hm h n hh
    · rw [(x.held f hm h n hh).1]
      decide
  range := x.range
  handles := x.handles
  slots := x.slots
  next := x.next

/-- The call has ended. -/
theorem Exact.pop {e : EntryNo} (x : Exact (e :: X) s) : Exact X (s.writeEntry e none) := by
  have calls {f : EntryNo} {h : Nat} {n : SlotNo} (hh : (s.writeEntry e none).heldBy f = some (h, n)) :
      f ≠ e ∧ s.heldBy f = some (h, n) := by
    rw [heldBy_writeEntry] at hh
    split at hh
    · cases hh
    · next hne => exact ⟨hne, hh⟩
  constructor
  case nodup => exact x.nodup
  case pool => exact x.pool
  case held =>
    intro f hf h n hh
    obtain ⟨hne, old⟩ := calls hh
    exact x.held f (by simp [hne, hf]) h n old
  case leaving =>
    intro f hf h n hh
    exact x.leaving f (List.mem_cons_of_mem _ hf) h n (calls hh).2
  case range => exact fun f h n hh => x.range f h n (calls hh).2
  case handles => exact fun f g h n m hf hg => x.handles f g h n m (calls hf).2 (calls hg).2
  case slots => exact fun f g h k n hf hg => x.slots f g h k n (calls hf).2 (calls hg).2
  case next => exact x.next

/-- A slot is written, and the pool with it. -/
def State.putSlot (s : State) (n : SlotNo) (r : Slot) (pool : List SlotNo) : State := { s.setSlot n r with pool := pool }

theorem slot_putSlot (n m : SlotNo) (r : Slot) (pool : List SlotNo) :
    (s.putSlot n r pool).slot m = if m = n then r else s.slot m := State.slot_setSlot s n m r

/-- A slot that no call holds, but one that is being ended if the slot does not become FREE. -/
theorem Exact.putSlot (x : Exact X s) {n : SlotNo} {r : Slot} {pool : List SlotNo} (hd : pool.Nodup)
    (hp : ∀ m, m ∈ pool ↔ if m = n then r.state = .free else m ∈ s.pool)
    (hn : ∀ f ∉ X, ∀ h, s.heldBy f ≠ some (h, n)) (hx : ∀ f ∈ X, ∀ h, s.heldBy f = some (h, n) → r.state ≠ .free) :
    Exact X (s.putSlot n r pool) where
  nodup := hd
  pool m := by
    rw [slot_putSlot]
    refine (hp m).trans ?_
    split
    · exact .rfl
    · exact x.pool m
  held f hf h m hh := by
    rw [slot_putSlot]
    split
    · next hm => exact absurd (hm ▸ hh) (hn f hf h)
    · exact x.held f hf h m hh
  leaving f hf h m hh := by
    rw [slot_putSlot]
    split
    · next hm => exact hx f hf h (hm ▸ hh)
    · exact x.leaving f hf h m hh
  range := x.range
  handles := x.handles
  slots := x.slots
  next := x.next

theorem Full.putSlot (h : Full s) {n : SlotNo} {r : Slot} {pool : List SlotNo} (hr : r.state ≠ .bound) :
    Full (s.putSlot n r pool) := by
  intro m hm
  rw [slot_putSlot] at hm
  split at hm
  · exact absurd hm hr
  · exact h m hm

theorem mem_leavePool (n m : SlotNo) (p : Prop) (hp : ¬ p) :
    (m ∈ s.pool.filter fun k => !decide (k = n)) ↔ if m = n then p else m ∈ s.pool := by
  rw [List.mem_filter]
  split
  · next hm => simp [hm, hp]
  · next hm => simp [hm]

theorem Exact.suspect (x : Exact X s) {n : SlotNo} (hn : ∀ f ∉ X, ∀ h, s.heldBy f ≠ some (h, n)) :
    Exact X (s.suspect n) :=
  x.putSlot (r := Slot.outOfService) (x.nodup.filter _) (fun m => mem_leavePool n m _ (by decide)) hn
    fun _ _ _ _ => by decide

theorem Full.suspect (h : Full s) (n : SlotNo) : Full (s.suspect n) :=
  h.putSlot (r := Slot.outOfService) (pool := s.pool.filter _) (by decide)

theorem Exact.block (x : Exact X s) {n : SlotNo} (hn : ∀ f ∉ X, ∀ h, s.heldBy f ≠ some (h, n))
    (hf : (s.slot n).state ≠ .free) : Exact X (s.blockSlot n) :=
  x.putSlot (r := { state := .blocked, handle := 0, blockPending := false, damaged := false }) x.nodup
    (fun m => by
      split
      · next hm => rw [hm, x.pool]; exact iff_of_false hf (by decide)
      · exact .rfl) hn fun _ _ _ _ => by decide

theorem Full.block (h : Full s) (n : SlotNo) : Full (s.blockSlot n) :=
  h.putSlot (r := { state := .blocked, handle := 0, blockPending := false, damaged := false }) (pool := s.pool) (by decide)

theorem Exact.free (x : Exact X s) {n : SlotNo} (hn : ∀ f h, s.heldBy f ≠ some (h, n)) (hf : (s.slot n).state ≠ .free) :
    Exact X (s.freeSlot n) := by
  have out : n ∉ s.pool := fun hm => hf ((x.pool n).mp hm)
  refine x.putSlot (r := Slot.initial) (pool := s.pool ++ [n])
    (List.nodup_append.mpr ⟨x.nodup, by simp, fun a ha b hb => ?_⟩) (fun m => ?_) (fun f _ => hn f)
    fun f _ h hh => absurd hh (hn f h)
  · rw [List.mem_singleton.mp hb]
    rintro rfl
    exact out ha
  · rw [List.mem_append, List.mem_singleton]
    split
    · next hm => exact iff_of_true (.inr hm) rfl
    · next hm => simp [hm]

theorem Full.free (h : Full s) (n : SlotNo) : Full (s.freeSlot n) :=
  h.putSlot (r := Slot.initial) (pool := s.pool ++ [n]) (by decide)

/-- The slot of a call that is being ended is given up, and the call with it. -/
theorem Exact.endCall {e : EntryNo} {b : Binding} (x : Exact (e :: X) s) (h : (s.entry e).binding = some b)
    (ht : SlotEnd s b.slot t) : Exact X (t.endCall e b) ∧ (Full s → Full (t.endCall e b)) := by
  have popped := x.pop
  have nobody (f : EntryNo) (k : Nat) : (s.writeEntry e none).heldBy f ≠ some (k, b.slot) := by
    rw [heldBy_writeEntry]
    split
    · nofun
    · next hne => exact fun hh => hne (x.slots f e k b.handle b.slot hh (heldBy_some h))
  have taken : ((s.writeEntry e none).slot b.slot).state ≠ .free :=
    x.leaving e List.mem_cons_self b.handle b.slot (heldBy_some h)
  have settled {u : State} (k : SameHeld u (t.writeEntry e none)) (hu : Exact X u) : Exact X (t.endCall e b) := by
    rw [State.endCall, State.settle_eq]
    exact SameHeld.exact ⟨k.calls, k.slotState, k.slotHandle, k.pool, k.next⟩ hu
  constructor
  · cases ht with
    | suspect => exact settled (.of_eq rfl rfl rfl rfl) (popped.suspect fun f _ => nobody f)
    | free => exact settled (.of_eq rfl rfl rfl rfl) (popped.free nobody taken)
    | block => exact settled (.of_eq rfl rfl rfl rfl) (popped.block (fun f _ => nobody f) taken)
  · intro full
    have given : Full t ∧ (t.slot b.slot).state ≠ .bound ∧ t.entries = s.entries := by
      have written (r : Slot) (pool : List SlotNo) (hr : r.state ≠ .bound) :
          Full (s.putSlot b.slot r pool) ∧ ((s.putSlot b.slot r pool).slot b.slot).state ≠ .bound ∧
            (s.putSlot b.slot r pool).entries = s.entries :=
        ⟨full.putSlot hr, by rw [slot_putSlot, if_pos rfl]; exact hr, rfl⟩
      cases ht with
      | suspect => exact written Slot.outOfService (s.pool.filter _) (by decide)
      | free => exact written Slot.initial (s.pool ++ [b.slot]) (by decide)
      | block => exact written { state := .blocked, handle := 0, blockPending := false, damaged := false } s.pool (by decide)
    obtain ⟨fullt, gone, entries⟩ := given
    rw [State.endCall, State.settle_eq]
    intro n hn
    have bound : (t.slot n).state = .bound := hn
    obtain ⟨f, k, hk⟩ := fullt n bound
    refine ⟨f, k, ?_⟩
    show (t.writeEntry e none).heldBy f = some (k, n)
    rw [heldBy_writeEntry, if_neg]
    · exact hk
    · rintro rfl
      have same : t.heldBy f = some (b.handle, b.slot) := by
        unfold State.heldBy
        rw [State.entry_congr entries, h]
        rfl
      rw [same] at hk
      cases hk
      exact gone bound

theorem sameHeld_shed {e : EntryNo} {b : Binding} (h : (s.entry e).binding = some b) (r : RingEntry) :
    SameHeld s (s.shed r e b) := by
  have k := sameHeld_writeEntry h
    (c := { b with phase := .ringWait, tRingwait := some (s.params.tRingwait * secondMs) }) ⟨rfl, rfl, rfl⟩
  exact ⟨k.calls, k.slotState, k.slotHandle, k.pool, k.next⟩

theorem sameHeld_startRing {e : EntryNo} {b : Binding} (h : (s.entry e).binding = some b) (q : QueueEntry) :
    SameHeld s (s.startRing q e b) := by
  have k := sameHeld_writeEntry h (c := { b with phase := .ringing, tRingwait := none }) ⟨rfl, rfl, rfl⟩
  exact ⟨k.calls, k.slotState, k.slotHandle, k.pool, k.next⟩

/-! ## Parts -/

theorem Part.exact {a b : Stage} (m : Part a b) (x : Exact a.leaving a.state) :
    Exact b.leaving b.state ∧ (Full a.state → Full b.state) := by
  have same {X : List EntryNo} {s t : State} (x : Exact X s) (k : SameHeld s t) : Exact X t ∧ (Full s → Full t) :=
    ⟨k.exact x, k.full⟩
  cases m with
  | aside k => exact same x (.of_alike k)
  | leave => exact same (x.push _) (.of_eq rfl rfl rfl rfl)
  | @leaveSlot X W s n e b hn hb =>
    have named : s.heldBy e = some ((s.slot n).handle, b.slot) := by
      obtain ⟨call, handle⟩ := findBinding_found hb
      rw [heldBy_some call, show b.handle = (s.slot n).handle by simpa using handle]
    have nobody (f : EntryNo) (hf : f ∉ e :: X) (k : Nat) : s.heldBy f ≠ some (k, n) := by
      intro hh
      obtain ⟨_, handle⟩ := x.held f (fun hm => hf (List.mem_cons_of_mem _ hm)) k n hh
      rw [← handle] at hh
      exact hf (x.handles f e _ _ _ hh named ▸ List.mem_cons_self)
    exact ⟨SameHeld.exact (s := s.suspect n) (.of_eq rfl rfl rfl rfl) ((x.push e).suspect nobody),
      fun full => SameHeld.full (s := s.suspect n) (.of_eq rfl rfl rfl rfl) (full.suspect n)⟩
  | @slotLost X W s n h =>
    refine ⟨Exact.suspect x fun f hf k hh => ?_, fun full => full.suspect n⟩
    obtain ⟨bound, handle⟩ := x.held f hf k n hh
    have none := h bound
    obtain ⟨b, hb, hk, _⟩ : ∃ b, (s.entry f).binding = some b ∧ b.handle = k ∧ b.slot = n := by
      simpa [State.heldBy] using hh
    unfold State.byHandle State.findBinding at none
    rw [List.findSome?_eq_none_iff] at none
    have := none f (List.mem_finRange f)
    simp [hb, hk, handle] at this
  | dropRinging => exact same x (.of_eq rfl rfl rfl rfl)
  | dropQueued => exact same x (.of_eq rfl rfl rfl rfl)
  | shed _ h => exact same x (sameHeld_shed (findBinding_found h).1 _)
  | startRing _ h => exact same x (sameHeld_startRing (findBinding_found h).1 _)
  | endCall h ht => exact x.endCall h ht
  | lineLost => rw [State.quarantine_eq]; exact same x (.of_eq rfl rfl rfl rfl)
  | ceased => exact same x (.of_eq rfl rfl rfl rfl)
  | withdraw => exact same x (.of_eq rfl rfl rfl rfl)
  | quarantine => rw [State.quarantine_eq]; exact same x (.of_eq rfl rfl rfl rfl)

/-- Between two events: the pool and the bindings are exact, and the slots held if they were. -/
structure Agrees (s t : State) : Prop where
  exact : Exact [] t
  full : Full s → Full t

theorem Parts.agrees (m : Parts ⟨[], [], s⟩ ⟨[], [], t⟩) (x : Exact [] s) : Agrees s t := by
  obtain ⟨exact, full⟩ := m.keeps (P := fun a => Exact a.leaving a.state ∧ (Full s → Full a.state))
    (fun m ⟨x, full⟩ => ⟨(m.exact x).1, fun h => (m.exact x).2 (full h)⟩) ⟨x, id⟩
  exact ⟨exact, full⟩

/-! ## Link loss and warm reset -/

/-- What is kept of the pool while the calls and their slots are given up one after the other. -/
structure Pooled (s : State) : Prop where
  nodup : s.pool.Nodup
  pool : ∀ n, n ∈ s.pool ↔ (s.slot n).state = .free
  next : 1 ≤ s.nextHandle ∧ s.nextHandle ≤ 255

theorem Exact.pooled (x : Exact X s) : Pooled s := ⟨x.nodup, x.pool, x.next⟩

theorem Pooled.exact (x : Pooled s) (h : NoCalls s) : Exact [] s := by
  have none (e : EntryNo) (k : Nat) (n : SlotNo) : s.heldBy e ≠ some (k, n) := by simp [State.heldBy, h e]
  exact ⟨x.nodup, x.pool, fun e _ k n hh => absurd hh (none e k n), nofun, fun e k n hh => absurd hh (none e k n),
    fun e f k n m hh => absurd hh (none e k n), fun e f k l n hh => absurd hh (none e k n), x.next⟩

theorem Loss.pooled {settle : Bool} (m : Loss settle s t) (x : Pooled s) : Pooled t := by
  obtain ⟨nodup, pool, next⟩ := x
  cases m with
  | aside k =>
    exact ⟨k.pool ▸ nodup, fun n => by rw [k.pool, k.slotState]; exact pool n, by rw [k.nextHandle]; exact next⟩
  | endCall => rw [State.endCall, State.settle_eq]; exact ⟨nodup, pool, next⟩
  | emptied => exact ⟨nodup, pool, next⟩
  | lineLost => rw [State.quarantine_eq]; exact ⟨nodup, pool, next⟩
  | ceased => exact ⟨nodup, pool, next⟩
  | @slotEnd n t hn ht =>
    have alone : Exact [] { s with entries := Vector.replicate 15 Entry.initial } :=
      Pooled.exact ⟨nodup, pool, next⟩ fun e => by simp [State.entry, Entry.initial]
    have nobody (f : EntryNo) (k : Nat) :
        ({ s with entries := Vector.replicate 15 Entry.initial } : State).heldBy f ≠ some (k, n) := by
      simp [State.heldBy, State.entry, Entry.initial]
    have taken : (s.slot n).state ≠ .free := by rw [hn]; decide
    have given : ∃ u, Exact [] u ∧ u.pool = t.pool ∧ u.slots = t.slots ∧ u.nextHandle = t.nextHandle := by
      cases ht with
      | suspect => exact ⟨_, alone.suspect fun f _ => nobody f, rfl, rfl, rfl⟩
      | free => exact ⟨_, alone.free nobody taken, rfl, rfl, rfl⟩
      | block => exact ⟨_, alone.block (fun f _ => nobody f) taken, rfl, rfl, rfl⟩
    obtain ⟨u, x, samePool, sameSlots, sameNext⟩ := given
    exact ⟨samePool ▸ x.nodup, fun m => by rw [← samePool, State.slot_congr sameSlots.symm]; exact x.pool m,
      sameNext ▸ x.next⟩
  | dequeued =>
    have kept (xs : List Waiting) (t : State) (ht : Pooled t) :
        Pooled (xs.foldl (fun t w => t.place w.port .lockout) t) := by
      induction xs generalizing t with
      | nil => exact ht
      | cons w xs ih => exact ih _ ⟨ht.nodup, ht.pool, ht.next⟩
    obtain ⟨nodup, pool, next⟩ := kept s.owq s ⟨nodup, pool, next⟩
    exact ⟨nodup, pool, next⟩
  | released => exact ⟨nodup, pool, next⟩
  | cleared => exact ⟨nodup, pool, (by decide : 1 ≤ 1 ∧ 1 ≤ 255)⟩
  | placed => exact ⟨nodup, pool, next⟩

theorem Losses.agrees {settle : Bool} (m : Losses settle s.unring t) (x : Exact [] s) (empty : NoCalls t ∧ NoneHeld t) :
    Agrees s t := by
  obtain ⟨calls, held⟩ := empty
  have pooled : Pooled t := m.keeps Loss.pooled ⟨x.nodup, x.pool, x.next⟩
  exact ⟨pooled.exact calls, fun _ n hn => absurd hn (held n)⟩

/-! ## A new binding -/

theorem byHandle_none {h : Nat} (hn : s.byHandle h = none) (e : EntryNo) (n : SlotNo) : s.heldBy e ≠ some (h, n) := by
  intro hh
  obtain ⟨b, hb, hk, _⟩ : ∃ b, (s.entry e).binding = some b ∧ b.handle = h ∧ b.slot = n := by
    simpa [State.heldBy] using hh
  unfold State.byHandle State.findBinding at hn
  rw [List.findSome?_eq_none_iff] at hn
  have := hn e (List.mem_finRange e)
  simp [hb, hk] at this

theorem emptyEntry_none {e : EntryNo} (h : s.emptyEntry = some e) : (s.entry e).binding = none := by
  simpa using List.find?_some h

theorem agrees_bindTo {p : PortNo} {n : SlotNo} {e : EntryNo} {b : Binding} (x : Exact [] s) (f : Fresh s p n e b)
    (q : Port) : Agrees s (s.bindTo p n e b q) := by
  obtain ⟨k, chosen, free, _⟩ := handlesAreChosen s x.next.1 x.next.2
  have range : 1 ≤ b.handle ∧ b.handle ≤ 255 := by rw [f.handle, chosen]; omega
  have unnamed : s.byHandle b.handle = none := by rw [f.handle]; exact free
  have bare : s.heldBy e = none := by rw [State.heldBy, emptyEntry_none f.empty]; rfl
  have nobody (g : EntryNo) (h : Nat) : s.heldBy g ≠ some (h, n) := by
    intro hh
    have bound := (x.held g List.not_mem_nil h n hh).1
    rw [(x.pool n).mp f.pool] at bound
    cases bound
  have calls (g : EntryNo) : (s.bindTo p n e b q).heldBy g = if g = e then some (b.handle, n) else s.heldBy g := by
    refine (heldBy_writeEntry (s := s) e g (some b)).trans ?_
    rw [Option.map_some, f.slot]
  have call {g : EntryNo} {h : Nat} {m : SlotNo} (hh : (s.bindTo p n e b q).heldBy g = some (h, m)) :
      (g = e ∧ h = b.handle ∧ m = n) ∨ (g ≠ e ∧ m ≠ n ∧ h ≠ b.handle ∧ s.heldBy g = some (h, m)) := by
    rw [calls] at hh
    split at hh
    · next hg => cases hh; exact .inl ⟨hg, rfl, rfl⟩
    · next hg =>
      exact .inr ⟨hg, fun hm => nobody g h (hm ▸ hh), fun hk => byHandle_none unnamed g m (hk ▸ hh), hh⟩
  have slot (m : SlotNo) : (s.bindTo p n e b q).slot m =
      if m = n then { state := .bound, handle := b.handle, blockPending := false, damaged := false } else s.slot m :=
    State.slot_setSlot s n m _
  constructor
  · constructor
    case nodup => exact x.nodup.filter _
    case pool =>
      intro m
      rw [slot]
      refine (mem_leavePool n m False id).trans ?_
      split
      · exact iff_of_false id nofun
      · exact x.pool m
    case held =>
      intro g _ h m hh
      rw [slot]
      obtain ⟨_, rfl, rfl⟩ | ⟨_, hm, _, old⟩ := call hh
      · rw [if_pos rfl]; exact ⟨rfl, rfl⟩
      · rw [if_neg hm]; exact x.held g List.not_mem_nil h m old
    case leaving => exact nofun
    case range =>
      intro g h m hh
      obtain ⟨_, rfl, _⟩ | ⟨_, _, _, old⟩ := call hh
      · exact range
      · exact x.range g h m old
    case handles =>
      intro g g' h m m' hg hg'
      obtain ⟨eg, ek, _⟩ | ⟨_, _, nk, old⟩ := call hg
      · obtain ⟨eg', _⟩ | ⟨_, _, nk', _⟩ := call hg'
        · rw [eg, eg']
        · exact absurd ek nk'
      · obtain ⟨_, ek', _⟩ | ⟨_, _, _, old'⟩ := call hg'
        · exact absurd ek' nk
        · exact x.handles g g' h m m' old old'
    case slots =>
      intro g g' h h' m hg hg'
      obtain ⟨eg, _, em⟩ | ⟨_, nm, _, old⟩ := call hg
      · obtain ⟨eg', _⟩ | ⟨_, nm', _, _⟩ := call hg'
        · rw [eg, eg']
        · exact absurd em nm'
      · obtain ⟨_, _, em'⟩ | ⟨_, _, _, old'⟩ := call hg'
        · exact absurd em' nm
        · exact x.slots g g' h h' m old old'
    case next =>
      show 1 ≤ nextOf b.handle ∧ nextOf b.handle ≤ 255
      exact nextOf_range range.1 range.2
  · intro full m hm
    rw [slot] at hm
    split at hm
    · next h => exact ⟨e, b.handle, by rw [calls, if_pos rfl, h]⟩
    · obtain ⟨g, h, hh⟩ := full m hm
      refine ⟨g, h, ?_⟩
      rw [calls, if_neg]
      · exact hh
      · rintro rfl
        rw [bare] at hh
        cases hh

/-! ## Moves -/

theorem held_placeWritten (s : State) (p : PortNo) : SameHeld s (s.placeWritten p) := by
  unfold State.placeWritten
  dsimp only
  repeat' split
  all_goals exact .of_eq rfl rfl rfl rfl

theorem held_ceaseWithdrawnCall (s : State) (p : PortNo) : SameHeld s (s.ceaseWithdrawnCall p) := by
  unfold State.ceaseWithdrawnCall
  dsimp only
  split
  · exact .of_eq rfl rfl rfl rfl
  · split <;> exact .of_eq rfl rfl rfl rfl

/-- A slot that no call holds is written. -/
theorem unheld (x : Exact [] s) {n : SlotNo} (h : (s.slot n).state ≠ .bound) (f : EntryNo) (k : Nat) :
    s.heldBy f ≠ some (k, n) := fun hh => h (x.held f List.not_mem_nil k n hh).1

theorem Move.agrees (m : Move s t) (x : Exact [] s) : Agrees s t := by
  have same {t : State} (k : SameHeld s t) : Agrees s t := ⟨k.exact x, k.full⟩
  have unchanged {t : State} := SameHeld.of_eq (s := s) (t := t)
  have after {t u : State} (a : Agrees s t) (k : SameHeld t u) : Agrees s u :=
    ⟨k.exact a.exact, fun h => k.full (a.full h)⟩
  cases m with
  | aside k => exact same (.of_alike k)
  | connect e h hc => exact same (sameHeld_writeEntry h hc)
  | @pass _ a u hu ht =>
    have opened : SameHeld s u := by
      have k := SameHeld.of_alike hu
      exact ⟨k.calls, k.slotState, k.slotHandle, k.pool, k.next⟩
    have passed := parts_budgetPass.agrees (opened.exact x)
    exact ⟨(SameHeld.of_alike (.of_tables ht)).exact passed.exact,
      fun h => (SameHeld.of_alike (.of_tables ht)).full (passed.full (opened.full h))⟩
  | place => exact same (unchanged rfl rfl rfl rfl)
  | unqueue => exact same (unchanged rfl rfl rfl rfl)
  | join => exact same (unchanged rfl rfl rfl rfl)
  | @bindIdle p n e b q f => exact agrees_bindTo x f q
  | @bindWaiting p n e b q f => exact after (agrees_bindTo x f q) (.of_eq rfl rfl rfl rfl)
  | bindFull => exact same (unchanged rfl rfl rfl rfl)
  | @offer p n e b q r f => exact after (agrees_bindTo x f q) (.of_eq rfl rfl rfl rfl)
  | @answer e b c h hc => exact after (same (sameHeld_writeEntry h hc)) (.of_eq rfl rfl rfl rfl)
  | @clear e b c q h hc => exact after (same (sameHeld_writeEntry h hc)) (.of_eq rfl rfl rfl rfl)
  | @clearTest e b c q hold h hc => exact after (same (sameHeld_writeEntry h hc)) (.of_eq rfl rfl rfl rfl)
  | lineLost => rw [State.quarantine_eq]; exact same (unchanged rfl rfl rfl rfl)
  | @lineCleared p e b c h hc =>
    have written := same (sameHeld_writeEntry (findBinding_found h).1 hc)
    refine after written ?_
    rw [State.quarantine_eq]
    exact .of_eq rfl rfl rfl rfl
  | lineFailed hc hp hd => exact (parts_lineFailed hc hp hd).agrees x
  | requarantine => rw [State.quarantine_eq]; exact same (unchanged rfl rfl rfl rfl)
  | bindingActions outer e => exact (parts_bindingActions outer e).agrees x
  | slotActions n => exact (parts_slotActions n).agrees x
  | suspect n h =>
    have free := (x.pool n).mp h
    exact ⟨x.suspect fun f _ => unheld x (by rw [free]; decide) f, fun full => full.suspect n⟩
  | retireSteps hb => exact (parts_retireSteps hb).agrees x
  | ceaseNow p => rw [ceaseNow_eq]; exact same (unchanged rfl rfl rfl rfl)
  | ceaseWithdrawnCall p => exact same (held_ceaseWithdrawnCall s p)
  | ceasing => exact same (unchanged rfl rfl rfl rfl)
  | @writeService p st c w =>
    have written : Agrees s ((s.writeLine p ((s.line p).rewritten st c w)).setIndex p (some w.key)) :=
      same (unchanged rfl rfl rfl rfl)
    exact after written (held_placeWritten _ p)
  | release => exact same (unchanged rfl rfl rfl rfl)
  | connectIdle => exact same (unchanged rfl rfl rfl rfl)
  | blockFree n h =>
    have left : Exact [] (s.suspect n) := x.suspect fun f _ => unheld x (by rw [h]; decide) f
    have suspected : ((s.suspect n).slot n).state = .suspect := by
      show ((s.setSlot n Slot.outOfService).slot n).state = _
      rw [State.slot_setSlot, if_pos rfl]
      rfl
    have blocked := left.block (fun f _ => unheld left (by rw [suspected]; decide) f) (by rw [suspected]; decide)
    have rewritten : SameHeld ((s.suspect n).blockSlot n) ((s.leavePool n).blockSlot n) := by
      refine .of_eq rfl ?_ rfl rfl
      show s.slots.set n _ = (s.slots.set n _).set n _
      rw [Vector.set_set]
    exact ⟨rewritten.exact blocked, fun full => rewritten.full ((full.suspect n).block n)⟩
  | blockSuspect n h =>
    exact ⟨x.block (fun f _ => unheld x (by rw [h]; decide) f) (by rw [h]; decide), fun full => full.block n⟩
  | freeSlot n h =>
    have state : (s.slot n).state ≠ .bound ∧ (s.slot n).state ≠ .free := by
      rcases h with h | h <;> rw [h] <;> decide
    exact ⟨x.free (fun f k => unheld x state.1 f k) state.2, fun full => full.free n⟩
  | linkLoss => exact (losses_linkLoss s).agrees x (linkLoss_empty s)
  | warmReset => exact (losses_warmReset s).agrees x (warmReset_empty s)
  | cleared k =>
    have pooled : Pooled t := ⟨k.pool.1, k.pool.2, by rw [k.nextHandle]; decide⟩
    exact ⟨pooled.exact k.entries, fun _ n hn => absurd hn (k.slots n)⟩

theorem Moves.agrees (m : Moves s t) (x : Exact [] s) : Agrees s t := by
  induction m with
  | refl => exact ⟨x, id⟩
  | tail _ m ih => exact ⟨(m.agrees ih.exact).exact, fun h => (m.agrees ih.exact).full (ih.full h)⟩

/-- Settles O56: a step is a run of moves, and each keeps the pool, the bindings and the slots in agreement. -/
theorem slotsAndBindingsAgree : Obligations.SlotsAndBindingsAgree := by
  intro s t pool bindings hs
  have x : Exact [] s := exact_iff.mpr ⟨pool, bindings⟩
  obtain ⟨y, full⟩ := (moves_step hs).agrees x
  obtain ⟨pool', bindings'⟩ := exact_iff.mp y
  exact ⟨pool', bindings', fun held => (full_iff y).mp (full ((full_iff x).mpr held))⟩

end Sys2Proof.Machine
end

section
/-!
PROOFS. The calls, the queues, the ringing lists and the test bus under every part and every move
(CallsAndQueuesAgree).
-/
namespace Sys2Proof.Machine

open Sys2Proof.Safety

variable {s t : State} {X : List EntryNo} {W : List PortNo}

/-! ## The promise -/

/-- The handle, the port and the phase of the call in an entry. -/
def State.callAt (s : State) (e : EntryNo) : Option (Nat × PortNo × Phase) :=
  (s.entry e).binding.map fun b => (b.handle, b.port, b.phase)

/-- The handles and ports in the ring queue, and in the ringing list. -/
def State.queued (s : State) : List (Nat × PortNo) := s.ringQueue.map fun q => (q.handle, q.port)

def State.ringers (s : State) : List (Nat × PortNo) := s.ringList.map fun r => (r.handle, r.port)

/-- The ports in the origin wait queue. -/
def State.waiters (s : State) : List PortNo := s.owq.map (·.port)

theorem callAt_some {e : EntryNo} {b : Binding} (h : (s.entry e).binding = some b) :
    s.callAt e = some (b.handle, b.port, b.phase) := by rw [State.callAt, h]; rfl

theorem callAt_exists {e : EntryNo} {h : Nat} {p : PortNo} {f : Phase} (hc : s.callAt e = some (h, p, f)) :
    ∃ b, (s.entry e).binding = some b ∧ b.handle = h ∧ b.port = p ∧ b.phase = f := by
  simpa [State.callAt] using hc

/-- The state that each port is in and the calls, queues and bus agree (R37, R66, R96, R116, R166, R180), but that a call
that is being ended stands in no list and need not have its port BOUND, and that the quarantine of a withdrawn record may
still be to come. -/
structure Placed (X : List EntryNo) (W : List PortNo) (s : State) : Prop where
  ports : ∀ e f h k p a b, s.callAt e = some (h, p, a) → s.callAt f = some (k, p, b) → e = f
  bound : ∀ p, (s.port p).sup = .bound → ∃ e h a, s.callAt e = some (h, p, a) ∧ (a ≠ .clearing ∨ e ∈ X)
  live : ∀ e ∉ X, ∀ h p a, s.callAt e = some (h, p, a) → a ≠ .clearing → (s.port p).sup = .bound
  waitOnce : s.waiters.Nodup
  wait : ∀ p, p ∈ s.waiters ↔ (s.port p).sup = .waitSlot
  queueOnce : (s.queued.map (·.1)).Nodup
  queueHas : ∀ h p, (h, p) ∈ s.queued → ∃ e, s.callAt e = some (h, p, .ringWait)
  queueAll : ∀ e ∉ X, ∀ h p, s.callAt e = some (h, p, .ringWait) → h ∈ s.queued.map (·.1)
  ringOnce : (s.ringers.map (·.1)).Nodup
  ringHas : ∀ h p, (h, p) ∈ s.ringers → ∃ e, s.callAt e = some (h, p, .ringing)
  ringAll : ∀ e ∉ X, ∀ h p, s.callAt e = some (h, p, .ringing) → h ∈ s.ringers.map (·.1)
  apart : ∀ e ∈ X, ∀ h p a, s.callAt e = some (h, p, a) → h ∉ s.queued.map (·.1) ∧ h ∉ s.ringers.map (·.1)
  test : ∀ p, (s.port p).sup = .test ↔ s.bus.map (·.port) = some p
  withdrawn : ∀ p ∉ W, (s.line p).withdrawn = true → (s.port p).sup = .quarantine ∨ (s.port p).sup = .test
  withdrawing : ∀ p ∈ W, (s.line p).withdrawn = true ∧ p ∉ s.waiters

theorem placed_iff : Placed [] [] s ↔ CallsPlaced s := by
  have handles (s : State) : s.queued.map (·.1) = s.ringQueue.map (·.handle) ∧
      s.ringers.map (·.1) = s.ringList.map (·.handle) := by
    simp [State.queued, State.ringers, Function.comp_def]
  obtain ⟨hq, hr⟩ := handles s
  constructor
  · intro x
    refine ⟨fun e f b hb c hc same => ?_, fun p => ⟨fun hp => ?_, ?_⟩, x.waitOnce, x.wait, hq ▸ x.queueOnce, fun q hm => ?_,
      fun e b hb hp => ?_, hr ▸ x.ringOnce, fun r hm => ?_, fun e b hb hp => ?_, x.test,
      fun p => x.withdrawn p List.not_mem_nil⟩
    · exact x.ports e f _ _ _ _ _ (callAt_some hb) (same ▸ callAt_some hc)
    · obtain ⟨e, h, a, hc, ha⟩ := x.bound p hp
      obtain ⟨b, hb, _, hp, hph⟩ := callAt_exists hc
      exact ⟨e, b, hb, hp, hph ▸ ha.resolve_right List.not_mem_nil⟩
    · rintro ⟨e, b, hb, rfl, ha⟩
      exact x.live e List.not_mem_nil _ _ _ (callAt_some hb) ha
    · have queued : (q.handle, q.port) ∈ s.queued := List.mem_map_of_mem (f := fun q : QueueEntry => (q.handle, q.port)) hm
      obtain ⟨e, hc⟩ := x.queueHas _ _ queued
      obtain ⟨b, hb, hh, hp, ha⟩ := callAt_exists hc
      exact ⟨e, b, hb, hh, hp, ha⟩
    · exact hq ▸ x.queueAll e List.not_mem_nil _ _ (hp ▸ callAt_some hb)
    · have ringing : (r.handle, r.port) ∈ s.ringers := List.mem_map_of_mem (f := fun r : RingEntry => (r.handle, r.port)) hm
      obtain ⟨e, hc⟩ := x.ringHas _ _ ringing
      obtain ⟨b, hb, hh, hp, ha⟩ := callAt_exists hc
      exact ⟨e, b, hb, hh, hp, ha⟩
    · exact hr ▸ x.ringAll e List.not_mem_nil _ _ (hp ▸ callAt_some hb)
  · rintro ⟨ports, bound, waitOnce, wait, queueOnce, queueHas, queueAll, ringOnce, ringHas, ringAll, test, withdrawn⟩
    constructor
    case ports =>
      intro e f h k p a b he hf
      obtain ⟨b, hb, _, rfl, _⟩ := callAt_exists he
      obtain ⟨c, hc, _, same, _⟩ := callAt_exists hf
      exact ports e f b hb c hc same.symm
    case bound =>
      intro p hp
      obtain ⟨e, b, hb, rfl, ha⟩ := (bound p).mp hp
      exact ⟨e, _, _, callAt_some hb, .inl ha⟩
    case live =>
      intro e _ h p a he ha
      obtain ⟨b, hb, _, rfl, rfl⟩ := callAt_exists he
      exact (bound b.port).mpr ⟨e, b, hb, rfl, ha⟩
    case waitOnce => exact waitOnce
    case wait => exact wait
    case queueOnce => exact hq.symm ▸ queueOnce
    case queueHas =>
      intro h p hm
      obtain ⟨q, member, he⟩ := List.mem_map.mp hm
      cases he
      obtain ⟨e, b, hb, hh, hp, ha⟩ := queueHas q member
      exact ⟨e, by rw [callAt_some hb, hh, hp, ha]⟩
    case queueAll =>
      intro e _ h p he
      obtain ⟨b, hb, rfl, _, ha⟩ := callAt_exists he
      exact hq.symm ▸ queueAll e b hb ha
    case ringOnce => exact hr.symm ▸ ringOnce
    case ringHas =>
      intro h p hm
      obtain ⟨r, member, he⟩ := List.mem_map.mp hm
      cases he
      obtain ⟨e, b, hb, hh, hp, ha⟩ := ringHas r member
      exact ⟨e, by rw [callAt_some hb, hh, hp, ha]⟩
    case ringAll =>
      intro e _ h p he
      obtain ⟨b, hb, rfl, _, ha⟩ := callAt_exists he
      exact hr.symm ▸ ringAll e b hb ha
    case apart => exact nofun
    case test => exact test
    case withdrawn => exact fun p _ => withdrawn p
    case withdrawing => exact nofun

/-! ## What it looks at -/

structure SamePlaces (s t : State) : Prop where
  calls : ∀ e, t.callAt e = s.callAt e
  sup : ∀ p, (t.port p).sup = (s.port p).sup
  waiters : t.waiters = s.waiters
  queued : t.queued = s.queued
  ringers : t.ringers = s.ringers
  bus : t.bus.map (·.port) = s.bus.map (·.port)
  withdrawn : ∀ p, (t.line p).withdrawn = (s.line p).withdrawn

theorem SamePlaces.of_alike (k : Alike s t) : SamePlaces s t where
  calls e := by
    have idents (u : State) : u.callAt e =
        ((u.entry e).binding.map Binding.ident).map fun i : Nat × PortNo × SlotNo × Phase => (i.1, i.2.1, i.2.2.2) := by
      unfold State.callAt
      rw [Option.map_map]
      rfl
    rw [idents, idents, k.bindings]
  sup := k.sup
  waiters := k.owq
  queued := by unfold State.queued; rw [k.ringQueue]
  ringers := by
    have idents (u : State) : u.ringers =
        (u.ringList.map RingEntry.ident).map fun i : Nat × PortNo × Nat => (i.1, i.2.1) := by
      unfold State.ringers
      rw [List.map_map]
      rfl
    rw [idents, idents, k.ringList]
  bus := k.bus
  withdrawn := k.withdrawn

theorem SamePlaces.of_eq (he : t.entries = s.entries) (hp : t.ports = s.ports) (hl : t.lines = s.lines)
    (hw : t.owq = s.owq) (hq : t.ringQueue = s.ringQueue) (hr : t.ringList = s.ringList) (hb : t.bus = s.bus) :
    SamePlaces s t :=
  ⟨fun e => by unfold State.callAt; rw [State.entry_congr he], fun p => by rw [State.port_congr hp],
    by unfold State.waiters; rw [hw], by unfold State.queued; rw [hq], by unfold State.ringers; rw [hr], by rw [hb],
    fun p => by rw [State.line_congr hl]⟩

theorem Placed.congr (x : Placed X W s) (k : SamePlaces s t) : Placed X W t := by
  obtain ⟨calls, sup, waiters, queued, ringers, bus, withdrawn⟩ := k
  constructor
  case ports => intro e f; rw [calls, calls]; exact x.ports e f
  case bound => intro p; rw [sup]; simp only [calls]; exact x.bound p
  case live => intro e he h p a; rw [calls, sup]; exact x.live e he h p a
  case waitOnce => rw [waiters]; exact x.waitOnce
  case wait => intro p; rw [waiters, sup]; exact x.wait p
  case queueOnce => rw [queued]; exact x.queueOnce
  case queueHas => intro h p; rw [queued]; simp only [calls]; exact x.queueHas h p
  case queueAll => intro e he h p; rw [calls, queued]; exact x.queueAll e he h p
  case ringOnce => rw [ringers]; exact x.ringOnce
  case ringHas => intro h p; rw [ringers]; simp only [calls]; exact x.ringHas h p
  case ringAll => intro e he h p; rw [calls, ringers]; exact x.ringAll e he h p
  case apart => intro e he h p a; rw [calls, queued, ringers]; exact x.apart e he h p a
  case test => intro p; rw [sup, bus]; exact x.test p
  case withdrawn => intro p hp; rw [withdrawn, sup]; exact x.withdrawn p hp
  case withdrawing => intro p hp; rw [withdrawn, waiters]; exact x.withdrawing p hp

/-! ## A port is moved -/

/-- What may become of a port and its record by themselves: the supervision state and the withdrawn marker of one port,
the wait queue and the bus. -/
structure Shifted (s t : State) (p : PortNo) : Prop where
  calls : ∀ e, t.callAt e = s.callAt e
  queued : t.queued = s.queued
  ringers : t.ringers = s.ringers
  sup : ∀ r, r ≠ p → (t.port r).sup = (s.port r).sup
  line : ∀ r, r ≠ p → (t.line r).withdrawn = (s.line r).withdrawn
  waitOnce : t.waiters.Nodup
  waiters : ∀ r, r ≠ p → (r ∈ t.waiters ↔ r ∈ s.waiters)
  bus : ∀ r, r ≠ p → (t.bus.map (·.port) = some r ↔ s.bus.map (·.port) = some r)

/-- A port without a call outside CLEARING, but one that is being ended, takes another state. -/
theorem Placed.shift (x : Placed X W s) {V : List PortNo} {p : PortNo} (k : Shifted s t p)
    (free : (s.port p).sup ≠ .bound ∨ ∃ e ∈ X, ∃ h a, s.callAt e = some (h, p, a))
    (unbound : (t.port p).sup = .bound → ∃ e ∈ X, ∃ h a, s.callAt e = some (h, p, a)) (wait : p ∈ t.waiters ↔ (t.port p).sup = .waitSlot)
    (test : (t.port p).sup = .test ↔ t.bus.map (·.port) = some p)
    (withdrawn : p ∉ V → (t.line p).withdrawn = true → (t.port p).sup = .quarantine ∨ (t.port p).sup = .test)
    (withdrawing : p ∈ V → (t.line p).withdrawn = true ∧ p ∉ t.waiters) (hV : ∀ r, r ≠ p → (r ∈ V ↔ r ∈ W)) :
    Placed X V t := by
  constructor
  case ports => intro e f; rw [k.calls, k.calls]; exact x.ports e f
  case bound =>
    intro r hr
    simp only [k.calls]
    by_cases hp : r = p
    · obtain ⟨e, he, h, a, hc⟩ := unbound (hp ▸ hr)
      exact ⟨e, h, a, hp ▸ hc, .inr he⟩
    · exact x.bound r (k.sup r hp ▸ hr)
  case live =>
    intro e he h r a hc ha
    rw [k.calls] at hc
    have bound := x.live e he h r a hc ha
    have other : r ≠ p := by
      rintro rfl
      rcases free with free | ⟨f, hf, _, _, hcf⟩
      · exact free bound
      · exact he (x.ports e f _ _ _ _ _ hc hcf ▸ hf)
    rw [k.sup r other]
    exact bound
  case waitOnce => exact k.waitOnce
  case wait =>
    intro r
    by_cases hr : r = p
    · rw [hr]; exact wait
    · rw [k.waiters r hr, k.sup r hr]; exact x.wait r
  case queueOnce => rw [k.queued]; exact x.queueOnce
  case queueHas => intro h p; rw [k.queued]; simp only [k.calls]; exact x.queueHas h p
  case queueAll => intro e he h p; rw [k.calls, k.queued]; exact x.queueAll e he h p
  case ringOnce => rw [k.ringers]; exact x.ringOnce
  case ringHas => intro h p; rw [k.ringers]; simp only [k.calls]; exact x.ringHas h p
  case ringAll => intro e he h p; rw [k.calls, k.ringers]; exact x.ringAll e he h p
  case apart => intro e he h p a; rw [k.calls, k.queued, k.ringers]; exact x.apart e he h p a
  case test =>
    intro r
    by_cases hr : r = p
    · rw [hr]; exact test
    · rw [k.sup r hr, k.bus r hr]; exact x.test r
  case withdrawn =>
    intro r hr hw
    by_cases hp : r = p
    · rw [hp] at hr hw ⊢; exact withdrawn hr hw
    · rw [k.sup r hp]
      exact x.withdrawn r (fun hm => hr ((hV r hp).mpr hm)) (k.line r hp ▸ hw)
  case withdrawing =>
    intro r hr
    by_cases hp : r = p
    · rw [hp] at hr ⊢; exact withdrawing hr
    · rw [k.line r hp, k.waiters r hp]
      exact x.withdrawing r ((hV r hp).mp hr)

theorem port_setPort_ne {p r : PortNo} (h : r ≠ p) (q : Port) : (s.setPort p q).port r = s.port r := by
  rw [State.port_setPort, if_neg h]

theorem line_setLine_ne {p r : PortNo} (h : r ≠ p) (l : LineRecord) : (s.setLine p l).line r = s.line r := by
  rw [State.line_setLine, if_neg h]

theorem waiters_leaveQueue (p : PortNo) : (s.leaveQueue p).waiters = s.waiters.filter fun r => !decide (r = p) := by
  unfold State.waiters State.leaveQueue
  rw [List.filter_map]
  rfl

theorem mem_without {p r : PortNo} {xs : List PortNo} (h : r ≠ p) : (r ∈ xs.filter fun r => !decide (r = p)) ↔ r ∈ xs := by
  simp [h]

theorem not_mem_without {p : PortNo} {xs : List PortNo} : p ∉ xs.filter fun r => !decide (r = p) := by simp

/-- Only the port is written. -/
theorem shifted_setPort (x : Placed X W s) (p : PortNo) (q : Port) : Shifted s (s.setPort p q) p :=
  ⟨fun _ => rfl, rfl, rfl, fun r h => by rw [port_setPort_ne h], fun _ _ => rfl, x.waitOnce, fun _ _ => .rfl, fun _ _ => .rfl⟩

/-- The port leaves the wait queue and is written. -/
theorem shifted_leave (x : Placed X W s) (p : PortNo) (q : Port) : Shifted s ((s.leaveQueue p).setPort p q) p := by
  refine ⟨fun _ => rfl, rfl, rfl, fun r h => by rw [port_setPort_ne h]; rfl, fun _ _ => rfl, ?_, fun r h => ?_, fun _ _ => .rfl⟩
  · rw [show ((s.leaveQueue p).setPort p q).waiters = _ from waiters_leaveQueue p]
    exact x.waitOnce.filter _
  · rw [show ((s.leaveQueue p).setPort p q).waiters = _ from waiters_leaveQueue p]
    exact mem_without h

/-- The port leaves the wait queue and is written with its record. -/
theorem shifted_record (x : Placed X W s) (p : PortNo) (q : Port) (r : LineRecord) (k : Option Nat) :
    Shifted s ((((s.setLine p r).setIndex p k).leaveQueue p).setPort p q) p := by
  obtain ⟨calls, queued, ringers, sup, _, once, waiters, bus⟩ := shifted_leave x p q
  exact ⟨calls, queued, ringers, sup, fun r' h => by
    show ((s.setLine p r).line r').withdrawn = _
    rw [line_setLine_ne h], once, waiters, bus⟩

end Sys2Proof.Machine
end

section
/-!
PROOFS. CallsAndQueuesAgree, continued: calls that begin, change and end, the parts and the moves.
-/
namespace Sys2Proof.Machine

open Sys2Proof.Safety

variable {s t : State} {X : List EntryNo} {W : List PortNo}

/-! ## Calls that are being ended -/

theorem Exact.one (x : Exact X s) {e f : EntryNo} {h : Nat} {p q : PortNo} {a b : Phase} (he : s.callAt e = some (h, p, a))
    (hf : s.callAt f = some (h, q, b)) : e = f := by
  obtain ⟨b, hb, rfl, _⟩ := callAt_exists he
  obtain ⟨c, hc, same, _⟩ := callAt_exists hf
  exact x.handles e f _ _ _ (heldBy_some hb) (same ▸ heldBy_some hc)

theorem mem_fst_without {k h : Nat} {l : List (Nat × PortNo)} :
    k ∈ (l.filter fun q => !decide (q.1 = h)).map (·.1) ↔ k ≠ h ∧ k ∈ l.map (·.1) := by
  simp only [List.mem_map, List.mem_filter]
  constructor
  · rintro ⟨q, ⟨hq, hne⟩, rfl⟩
    exact ⟨by simpa using hne, q, hq, rfl⟩
  · rintro ⟨hne, q, hq, rfl⟩
    exact ⟨q, ⟨hq, by simpa using hne⟩, rfl⟩

theorem queued_unringing (h : Nat) : (unringing s h).queued = s.queued.filter fun q => !decide (q.1 = h) := by
  unfold State.queued unringing
  rw [List.filter_map]
  rfl

theorem ringers_unringing (h : Nat) : (unringing s h).ringers = s.ringers.filter fun q => !decide (q.1 = h) := by
  unfold State.ringers unringing
  rw [List.filter_map]
  rfl

/-- A call begins to end: its handle is taken out of the lists. -/
theorem Placed.leave (x : Placed X W s) (u : Exact Y s) {e : EntryNo} {h : Nat} {p : PortNo} {a : Phase}
    (hc : s.callAt e = some (h, p, a)) : Placed (e :: X) W (unringing s h) := by
  have other {f : EntryNo} (hf : f ∉ e :: X) {k : Nat} {q : PortNo} {b : Phase} (hk : s.callAt f = some (k, q, b)) :
      k ≠ h ∧ f ∉ X := by
    refine ⟨?_, fun hm => hf (List.mem_cons_of_mem _ hm)⟩
    rintro rfl
    exact hf (u.one hk hc ▸ List.mem_cons_self)
  constructor
  case ports => exact x.ports
  case bound =>
    intro q hq
    obtain ⟨f, k, b, hk, hb⟩ := x.bound q hq
    exact ⟨f, k, b, hk, hb.imp_right (List.mem_cons_of_mem _)⟩
  case live => exact fun f hf k q b hk => x.live f (other hf hk).2 k q b hk
  case waitOnce => exact x.waitOnce
  case wait => exact x.wait
  case queueOnce => rw [queued_unringing]; exact (List.filter_sublist.map _).nodup x.queueOnce
  case queueHas => intro k q; rw [queued_unringing]; exact fun hm => x.queueHas k q (mem_of_filter hm)
  case queueAll =>
    intro f hf k q hk
    rw [queued_unringing]
    obtain ⟨hne, hX⟩ := other hf hk
    exact mem_fst_without.mpr ⟨hne, x.queueAll f hX k q hk⟩
  case ringOnce => rw [ringers_unringing]; exact (List.filter_sublist.map _).nodup x.ringOnce
  case ringHas => intro k q; rw [ringers_unringing]; exact fun hm => x.ringHas k q (mem_of_filter hm)
  case ringAll =>
    intro f hf k q hk
    rw [ringers_unringing]
    obtain ⟨hne, hX⟩ := other hf hk
    exact mem_fst_without.mpr ⟨hne, x.ringAll f hX k q hk⟩
  case apart =>
    intro f hf k q b hk
    rw [queued_unringing, ringers_unringing]
    rcases List.mem_cons.mp hf with rfl | hf
    · have same : k = h := by
        have := hk.symm.trans hc
        cases this
        rfl
      exact ⟨fun hm => (mem_fst_without.mp hm).1 same, fun hm => (mem_fst_without.mp hm).1 same⟩
    · obtain ⟨hq, hr⟩ := x.apart f hf k q b hk
      exact ⟨fun hm => hq (mem_fst_without.mp hm).2, fun hm => hr (mem_fst_without.mp hm).2⟩
  case test => exact x.test
  case withdrawn => exact x.withdrawn
  case withdrawing => exact x.withdrawing

theorem callAt_writeEntry (e f : EntryNo) (b : Option Binding) :
    (s.writeEntry e b).callAt f = if f = e then b.map (fun b => (b.handle, b.port, b.phase)) else s.callAt f := by
  unfold State.callAt
  rw [State.writeEntry, State.entry_setEntry]
  split <;> rfl

/-- A call that is being ended takes another phase. -/
theorem Placed.rephase (x : Placed X W s) {e : EntryNo} (he : e ∈ X) {b c : Binding}
    (h : (s.entry e).binding = some b) (hc : SameCall b c) : Placed X W (s.writeEntry e (some c)) := by
  obtain ⟨handle, port, _⟩ := hc
  have old := callAt_some h
  have new : (s.writeEntry e (some c)).callAt e = some (b.handle, b.port, c.phase) := by
    rw [callAt_writeEntry, if_pos rfl, Option.map_some, handle, port]
  have rest {f : EntryNo} (hf : f ≠ e) : (s.writeEntry e (some c)).callAt f = s.callAt f := by
    rw [callAt_writeEntry, if_neg hf]
  have call {f : EntryNo} {k : Nat} {p : PortNo} {a : Phase} (hk : (s.writeEntry e (some c)).callAt f = some (k, p, a)) :
      ∃ a', s.callAt f = some (k, p, a') ∧ (f ≠ e → a' = a) := by
    by_cases hf : f = e
    · subst hf
      rw [new] at hk
      cases hk
      exact ⟨b.phase, old, fun hne => absurd rfl hne⟩
    · exact ⟨a, by rw [← rest hf]; exact hk, fun _ => rfl⟩
  obtain ⟨noQueue, noRing⟩ := x.apart e he _ _ _ old
  constructor
  case ports =>
    intro f g k l p a a' hf hg
    obtain ⟨_, hf, _⟩ := call hf
    obtain ⟨_, hg, _⟩ := call hg
    exact x.ports f g _ _ _ _ _ hf hg
  case bound =>
    intro p hp
    obtain ⟨f, k, a, hf, ha⟩ := x.bound p hp
    by_cases hfe : f = e
    · subst hfe
      rw [old] at hf
      cases hf
      exact ⟨f, _, _, new, .inr he⟩
    · exact ⟨f, k, a, (rest hfe).trans hf, ha⟩
  case live =>
    intro f hf k p a hk ha
    have hfe : f ≠ e := by rintro rfl; exact hf he
    exact x.live f hf k p a (rest hfe ▸ hk) ha
  case waitOnce => exact x.waitOnce
  case wait => exact x.wait
  case queueOnce => exact x.queueOnce
  case queueHas =>
    intro k p hm
    obtain ⟨f, hf⟩ := x.queueHas k p hm
    refine ⟨f, (rest ?_).trans hf⟩
    rintro rfl
    obtain ⟨rfl, _⟩ : b.handle = k ∧ b.port = p ∧ b.phase = .ringWait := by simpa using old.symm.trans hf
    exact noQueue (List.mem_map_of_mem (f := Prod.fst) hm)
  case queueAll =>
    intro f hf k p hk
    have hfe : f ≠ e := by rintro rfl; exact hf he
    exact x.queueAll f hf k p (rest hfe ▸ hk)
  case ringOnce => exact x.ringOnce
  case ringHas =>
    intro k p hm
    obtain ⟨f, hf⟩ := x.ringHas k p hm
    refine ⟨f, (rest ?_).trans hf⟩
    rintro rfl
    obtain ⟨rfl, _⟩ : b.handle = k ∧ b.port = p ∧ b.phase = .ringing := by simpa using old.symm.trans hf
    exact noRing (List.mem_map_of_mem (f := Prod.fst) hm)
  case ringAll =>
    intro f hf k p hk
    have hfe : f ≠ e := by rintro rfl; exact hf he
    exact x.ringAll f hf k p (rest hfe ▸ hk)
  case apart =>
    intro f hf k p a hk
    obtain ⟨_, hk, _⟩ := call hk
    exact x.apart f hf k p _ hk
  case test => exact x.test
  case withdrawn => exact x.withdrawn
  case withdrawing => exact x.withdrawing

/-- The call of an entry stands again, in no ringing phase, its port BOUND just when it is outside CLEARING. -/
theorem Placed.settled {e : EntryNo} (x : Placed (e :: X) W s) {h : Nat} {p : PortNo} {a : Phase}
    (hc : s.callAt e = some (h, p, a)) (hr : a ∉ [Phase.ringWait, .ringing])
    (hp : (s.port p).sup = .bound ↔ a ≠ .clearing) : Placed X W s := by
  have here {f : EntryNo} (hf : f ∉ X) {k : Nat} {q : PortNo} {b : Phase} (hk : s.callAt f = some (k, q, b)) :
      (f ∉ e :: X) ∨ (q = p ∧ b = a) := by
    by_cases hfe : f = e
    · subst hfe
      rw [hc] at hk
      cases hk
      exact .inr ⟨rfl, rfl⟩
    · exact .inl (by simp [hfe, hf])
  exact { x with
    bound := fun q hq => by
      obtain ⟨f, k, b, hk, hb⟩ := x.bound q hq
      refine ⟨f, k, b, hk, ?_⟩
      rcases hb with hb | hb
      · exact .inl hb
      · rcases List.mem_cons.mp hb with rfl | hb
        · rw [hc] at hk
          cases hk
          exact .inl (hp.mp hq)
        · exact .inr hb
    live := fun f hf k q b hk hb => by
      obtain hf | ⟨rfl, rfl⟩ := here hf hk
      · exact x.live f hf k q b hk hb
      · exact hp.mpr hb
    queueAll := fun f hf k q hk => by
      obtain hf | ⟨_, rfl⟩ := here hf hk
      · exact x.queueAll f hf k q hk
      · simp at hr
    ringAll := fun f hf k q hk => by
      obtain hf | ⟨_, rfl⟩ := here hf hk
      · exact x.ringAll f hf k q hk
      · simp at hr
    apart := fun f hf => x.apart f (List.mem_cons_of_mem _ hf) }

/-- The entry of a call is emptied, its port BOUND no longer. -/
theorem Placed.erase {e : EntryNo} (x : Placed (e :: X) W s) {h : Nat} {p : PortNo} {a : Phase}
    (hc : s.callAt e = some (h, p, a)) (hp : (s.port p).sup ≠ .bound) : Placed X W (s.writeEntry e none) := by
  have rest {f : EntryNo} (hf : f ≠ e) : (s.writeEntry e none).callAt f = s.callAt f := by
    rw [callAt_writeEntry, if_neg hf]
  have call {f : EntryNo} {k : Nat} {q : PortNo} {b : Phase} (hk : (s.writeEntry e none).callAt f = some (k, q, b)) :
      f ≠ e ∧ s.callAt f = some (k, q, b) := by
    rw [callAt_writeEntry] at hk
    split at hk
    · cases hk
    · next hf => exact ⟨hf, hk⟩
  obtain ⟨noQueue, noRing⟩ := x.apart e List.mem_cons_self _ _ _ hc
  constructor
  case ports => exact fun f g k l q b b' hf hg => x.ports f g k l q b b' (call hf).2 (call hg).2
  case bound =>
    intro q hq
    obtain ⟨f, k, b, hk, hb⟩ := x.bound q hq
    have hf : f ≠ e := by
      rintro rfl
      rw [hc] at hk
      cases hk
      exact hp hq
    exact ⟨f, k, b, (rest hf).trans hk, hb.imp_right fun hm => (List.mem_cons.mp hm).resolve_left hf⟩
  case live =>
    intro f hf k q b hk hb
    obtain ⟨hne, hk⟩ := call hk
    exact x.live f (by simp [hne, hf]) k q b hk hb
  case waitOnce => exact x.waitOnce
  case wait => exact x.wait
  case queueOnce => exact x.queueOnce
  case queueHas =>
    intro k q hm
    obtain ⟨f, hf⟩ := x.queueHas k q hm
    refine ⟨f, (rest ?_).trans hf⟩
    rintro rfl
    rw [hc] at hf
    cases hf
    exact noQueue (List.mem_map_of_mem (f := Prod.fst) hm)
  case queueAll =>
    intro f hf k q hk
    obtain ⟨hne, hk⟩ := call hk
    exact x.queueAll f (by simp [hne, hf]) k q hk
  case ringOnce => exact x.ringOnce
  case ringHas =>
    intro k q hm
    obtain ⟨f, hf⟩ := x.ringHas k q hm
    refine ⟨f, (rest ?_).trans hf⟩
    rintro rfl
    rw [hc] at hf
    cases hf
    exact noRing (List.mem_map_of_mem (f := Prod.fst) hm)
  case ringAll =>
    intro f hf k q hk
    obtain ⟨hne, hk⟩ := call hk
    exact x.ringAll f (by simp [hne, hf]) k q hk
  case apart => exact fun f hf k q b hk => x.apart f (List.mem_cons_of_mem _ hf) k q b (call hk).2
  case test => exact x.test
  case withdrawn => exact x.withdrawn
  case withdrawing => exact x.withdrawing

/-! ## Calls that join a list, calls that begin -/

theorem perm_once {l m : List (Nat × PortNo)} {h : Nat} {p : PortNo} (hp : m.Perm ((h, p) :: l))
    (hl : (l.map (·.1)).Nodup) (hn : h ∉ l.map (·.1)) : (m.map (·.1)).Nodup :=
  (hp.map (·.1)).nodup_iff.mpr (List.nodup_cons.mpr ⟨hn, hl⟩)

theorem perm_mem {l m : List (Nat × PortNo)} {h : Nat} {p : PortNo} (hp : m.Perm ((h, p) :: l)) {q : Nat × PortNo} :
    q ∈ m ↔ q = (h, p) ∨ q ∈ l := by rw [hp.mem_iff, List.mem_cons]

theorem perm_fst {l m : List (Nat × PortNo)} {h : Nat} {p : PortNo} (hp : m.Perm ((h, p) :: l)) {k : Nat} :
    k ∈ m.map (·.1) ↔ k = h ∨ k ∈ l.map (·.1) := by rw [(hp.map (·.1)).mem_iff, List.map_cons, List.mem_cons]

/-- Ports, records, wait queue and bus stand as they stood, and so do the calls. -/
structure SameStations (s t : State) : Prop where
  calls : ∀ e, t.callAt e = s.callAt e
  sup : ∀ p, (t.port p).sup = (s.port p).sup
  waiters : t.waiters = s.waiters
  bus : t.bus.map (·.port) = s.bus.map (·.port)
  withdrawn : ∀ p, (t.line p).withdrawn = (s.line p).withdrawn

theorem SameStations.of_eq (he : t.entries = s.entries) (hp : t.ports = s.ports) (hl : t.lines = s.lines)
    (hw : t.owq = s.owq) (hb : t.bus = s.bus) : SameStations s t :=
  ⟨fun e => by unfold State.callAt; rw [State.entry_congr he], fun p => by rw [State.port_congr hp],
    by unfold State.waiters; rw [hw], by rw [hb], fun p => by rw [State.line_congr hl]⟩

/-- A call in RING_WAIT or RINGING joins its list. -/
theorem Placed.join {e : EntryNo} (x : Placed (e :: X) W s) (hX : e ∉ X) (u : Exact Y s) (k : SameStations s t) {h : Nat}
    {p : PortNo} {a : Phase} (hc : s.callAt e = some (h, p, a)) (hp : (s.port p).sup = .bound)
    (hl : (a = .ringWait ∧ t.queued.Perm ((h, p) :: s.queued) ∧ t.ringers = s.ringers) ∨
      (a = .ringing ∧ t.queued = s.queued ∧ t.ringers.Perm ((h, p) :: s.ringers))) : Placed X W t := by
  obtain ⟨calls, sup, waiters, bus, withdrawn⟩ := k
  obtain ⟨noQueue, noRing⟩ := x.apart e List.mem_cons_self _ _ _ hc
  have waits : a ≠ .clearing := by rcases hl with ⟨rfl, _⟩ | ⟨rfl, _⟩ <;> decide
  have here {f : EntryNo} (hf : f ∉ X) {k : Nat} {q : PortNo} {b : Phase} (hk : s.callAt f = some (k, q, b)) :
      (f ∉ e :: X) ∨ (k = h ∧ q = p ∧ b = a) := by
    by_cases hfe : f = e
    · subst hfe
      rw [hc] at hk
      cases hk
      exact .inr ⟨rfl, rfl, rfl⟩
    · exact .inl (by simp [hfe, hf])
  constructor
  case ports => intro f g; rw [calls, calls]; exact x.ports f g
  case bound =>
    intro q hq
    rw [sup] at hq
    simp only [calls]
    obtain ⟨f, k, b, hk, hb⟩ := x.bound q hq
    refine ⟨f, k, b, hk, ?_⟩
    rcases hb with hb | hb
    · exact .inl hb
    · rcases List.mem_cons.mp hb with rfl | hb
      · rw [hc] at hk
        cases hk
        exact .inl waits
      · exact .inr hb
  case live =>
    intro f hf k q b hk hb
    rw [calls] at hk
    rw [sup]
    obtain hf | ⟨_, rfl, _⟩ := here hf hk
    · exact x.live f hf k q b hk hb
    · exact hp
  case waitOnce => rw [waiters]; exact x.waitOnce
  case wait => intro q; rw [waiters, sup]; exact x.wait q
  case queueOnce =>
    rcases hl with ⟨_, queued, _⟩ | ⟨_, queued, _⟩
    · exact perm_once queued x.queueOnce noQueue
    · rw [queued]; exact x.queueOnce
  case queueHas =>
    intro k q hm
    simp only [calls]
    rcases hl with ⟨rfl, queued, _⟩ | ⟨_, queued, _⟩
    · rcases (perm_mem queued).mp hm with hq | hm
      · cases hq
        exact ⟨e, hc⟩
      · exact x.queueHas k q hm
    · exact x.queueHas k q (queued ▸ hm)
  case queueAll =>
    intro f hf k q hk
    rw [calls] at hk
    rcases hl with ⟨rfl, queued, _⟩ | ⟨rfl, queued, _⟩
    · refine (perm_fst queued).mpr ?_
      obtain hf | ⟨rfl, _⟩ := here hf hk
      · exact .inr (x.queueAll f hf k q hk)
      · exact .inl rfl
    · rw [queued]
      obtain hf | ⟨_, _, hph⟩ := here hf hk
      · exact x.queueAll f hf k q hk
      · cases hph
  case ringOnce =>
    rcases hl with ⟨_, _, ringers⟩ | ⟨_, _, ringers⟩
    · rw [ringers]; exact x.ringOnce
    · exact perm_once ringers x.ringOnce noRing
  case ringHas =>
    intro k q hm
    simp only [calls]
    rcases hl with ⟨_, _, ringers⟩ | ⟨rfl, _, ringers⟩
    · exact x.ringHas k q (ringers ▸ hm)
    · rcases (perm_mem ringers).mp hm with hq | hm
      · cases hq
        exact ⟨e, hc⟩
      · exact x.ringHas k q hm
  case ringAll =>
    intro f hf k q hk
    rw [calls] at hk
    rcases hl with ⟨rfl, _, ringers⟩ | ⟨rfl, _, ringers⟩
    · rw [ringers]
      obtain hf | ⟨_, _, hph⟩ := here hf hk
      · exact x.ringAll f hf k q hk
      · cases hph
    · refine (perm_fst ringers).mpr ?_
      obtain hf | ⟨rfl, _⟩ := here hf hk
      · exact .inr (x.ringAll f hf k q hk)
      · exact .inl rfl
  case apart =>
    intro f hf k q b hk
    rw [calls] at hk
    have other : k ≠ h := by
      rintro rfl
      exact hX (u.one hk hc ▸ hf)
    obtain ⟨hq, hr⟩ := x.apart f (List.mem_cons_of_mem _ hf) k q b hk
    rcases hl with ⟨_, queued, ringers⟩ | ⟨_, queued, ringers⟩
    · rw [perm_fst queued, ringers]
      exact ⟨not_or.mpr ⟨other, hq⟩, hr⟩
    · rw [perm_fst ringers, queued]
      exact ⟨hq, not_or.mpr ⟨other, hr⟩⟩
  case test => intro q; rw [sup, bus]; exact x.test q
  case withdrawn => intro q hq; rw [withdrawn, sup]; exact x.withdrawn q hq
  case withdrawing => intro q hq; rw [withdrawn, waiters]; exact x.withdrawing q hq

/-- A new call in an empty entry, its handle and its port free of calls. -/
theorem Placed.insert (x : Placed X W s) {e : EntryNo} (he : s.callAt e = none) {b : Binding}
    (hh : ∀ f p a, s.callAt f ≠ some (b.handle, p, a)) (hp : ∀ f h a, s.callAt f ≠ some (h, b.port, a)) :
    Placed (e :: X) W (s.writeEntry e (some b)) := by
  have new : (s.writeEntry e (some b)).callAt e = some (b.handle, b.port, b.phase) := by
    rw [callAt_writeEntry, if_pos rfl]; rfl
  have rest {f : EntryNo} (hf : f ≠ e) : (s.writeEntry e (some b)).callAt f = s.callAt f := by
    rw [callAt_writeEntry, if_neg hf]
  have kept {f : EntryNo} {c : Nat × PortNo × Phase} (hc : s.callAt f = some c) :
      (s.writeEntry e (some b)).callAt f = some c := by
    rw [rest]
    · exact hc
    · rintro rfl
      rw [he] at hc
      cases hc
  have noQueue : b.handle ∉ s.queued.map (·.1) := by
    intro hm
    obtain ⟨⟨k, p⟩, hm, rfl⟩ := List.mem_map.mp hm
    obtain ⟨f, hf⟩ := x.queueHas _ _ hm
    exact hh f _ _ hf
  have noRing : b.handle ∉ s.ringers.map (·.1) := by
    intro hm
    obtain ⟨⟨k, p⟩, hm, rfl⟩ := List.mem_map.mp hm
    obtain ⟨f, hf⟩ := x.ringHas _ _ hm
    exact hh f _ _ hf
  constructor
  case ports =>
    intro f g h k p a c hf hg
    by_cases hfe : f = e <;> by_cases hge : g = e
    · rw [hfe, hge]
    · rw [hfe, new] at hf
      rw [rest hge] at hg
      obtain ⟨_, rfl, _⟩ : b.handle = h ∧ b.port = p ∧ b.phase = a := by simpa using hf
      exact absurd hg (hp g _ _)
    · rw [rest hfe] at hf
      rw [hge, new] at hg
      obtain ⟨_, rfl, _⟩ : b.handle = k ∧ b.port = p ∧ b.phase = c := by simpa using hg
      exact absurd hf (hp f _ _)
    · rw [rest hfe] at hf
      rw [rest hge] at hg
      exact x.ports f g h k p a c hf hg
  case bound =>
    intro q hq
    obtain ⟨f, k, a, hk, ha⟩ := x.bound q hq
    exact ⟨f, k, a, kept hk, ha.imp_right (List.mem_cons_of_mem _)⟩
  case live =>
    intro f hf k q a hk ha
    obtain ⟨hne, hf⟩ := not_or.mp ((not_congr List.mem_cons).mp hf)
    exact x.live f hf k q a (rest hne ▸ hk) ha
  case waitOnce => exact x.waitOnce
  case wait => exact x.wait
  case queueOnce => exact x.queueOnce
  case queueHas =>
    intro k q hm
    obtain ⟨f, hf⟩ := x.queueHas k q hm
    exact ⟨f, kept hf⟩
  case queueAll =>
    intro f hf k q hk
    obtain ⟨hne, hf⟩ := not_or.mp ((not_congr List.mem_cons).mp hf)
    exact x.queueAll f hf k q (rest hne ▸ hk)
  case ringOnce => exact x.ringOnce
  case ringHas =>
    intro k q hm
    obtain ⟨f, hf⟩ := x.ringHas k q hm
    exact ⟨f, kept hf⟩
  case ringAll =>
    intro f hf k q hk
    obtain ⟨hne, hf⟩ := not_or.mp ((not_congr List.mem_cons).mp hf)
    exact x.ringAll f hf k q (rest hne ▸ hk)
  case apart =>
    intro f hf k q a hk
    by_cases hfe : f = e
    · rw [hfe, new] at hk
      obtain ⟨rfl, _⟩ : b.handle = k ∧ b.port = q ∧ b.phase = a := by simpa using hk
      exact ⟨noQueue, noRing⟩
    · exact x.apart f ((List.mem_cons.mp hf).resolve_left hfe) k q a (rest hfe ▸ hk)
  case test => exact x.test
  case withdrawn => exact x.withdrawn
  case withdrawing => exact x.withdrawing

/-! ## Parts -/

theorem queued_filter (h : Nat) (hn : h ∉ s.queued.map (·.1)) : s.queued.filter (fun q => !decide (q.1 = h)) = s.queued :=
  List.filter_eq_self.mpr fun q hq => by
    have : q.1 ≠ h := fun he => hn (he ▸ List.mem_map_of_mem (f := Prod.fst) hq)
    simpa using this

theorem ringers_filter (h : Nat) (hn : h ∉ s.ringers.map (·.1)) : s.ringers.filter (fun q => !decide (q.1 = h)) = s.ringers :=
  List.filter_eq_self.mpr fun q hq => by
    have : q.1 ≠ h := fun he => hn (he ▸ List.mem_map_of_mem (f := Prod.fst) hq)
    simpa using this

end Sys2Proof.Machine
end

section
/-!
PROOFS. CallsAndQueuesAgree, concluded: the parts, link loss and warm reset, the moves.
-/
namespace Sys2Proof.Machine

open Sys2Proof.Safety

variable {s t : State} {X : List EntryNo} {W : List PortNo}

/-! ## Parts -/

theorem settled_cases (q : Port) : (q.sup ≠ .bound ∧ (settled q).sup = q.sup) ∨
    (q.sup = .bound ∧ (settled q).sup ∈ [SupState.lockout, .idle, .parked]) := by
  unfold settled idled
  split
  · next h =>
    refine .inr ⟨h, ?_⟩
    split
    · simp
    · split <;> simp
  · next h => exact .inl ⟨h, rfl⟩

theorem quarantined_cases (q : Port) : (q.sup = .test ∧ (quarantined q).sup = .test) ∨
    (q.sup ≠ .test ∧ (quarantined q).sup = .quarantine) := by
  unfold quarantined
  split
  · next h => exact .inl ⟨h, h⟩
  · next h => exact .inr ⟨h, by split <;> rfl⟩

theorem vacated_cases (q : Port) : (q.sup = .test ∧ (vacated q).sup = .test) ∨
    (q.sup ≠ .test ∧ (vacated q).sup = .vacant) := by
  unfold vacated
  split
  · next h => exact .inl ⟨h, h⟩
  · next h => exact .inr ⟨h, rfl⟩

theorem sup_setPort (p : PortNo) (q : Port) : ((s.setPort p q).port p).sup = q.sup := by
  rw [State.port_setPort, if_pos rfl]

/-- A port goes to a state in which it holds no call, no place in the queue and not the bus, or keeps the bus. -/
theorem Placed.putPort (x : Placed X W s) {p : PortNo} {q : Port}
    (free : (s.port p).sup ≠ .bound ∨ ∃ e ∈ X, ∃ h a, s.callAt e = some (h, p, a)) (wait : (s.port p).sup ≠ .waitSlot)
    (hb : q.sup ≠ .bound) (hw : q.sup ≠ .waitSlot) (ht : q.sup = .test ↔ (s.port p).sup = .test)
    (withdrawn : p ∉ W → (s.line p).withdrawn = true → q.sup = .quarantine ∨ q.sup = .test) :
    Placed X W (s.setPort p q) := by
  refine x.shift (shifted_setPort x p q) free ?_ ?_ ?_ ?_ (x.withdrawing p) fun _ _ => .rfl <;> rw [sup_setPort]
  · exact fun h => absurd h hb
  · exact iff_of_false (fun hm => wait ((x.wait p).mp hm)) hw
  · exact ht.trans (x.test p)
  · exact withdrawn

theorem Placed.endCall {e : EntryNo} {b : Binding} (x : Placed (e :: X) W s) (h : (s.entry e).binding = some b)
    (ht : SlotEnd s b.slot t) : Placed X W (t.endCall e b) := by
  have call := callAt_some h
  have cases := settled_cases (s.port b.port)
  have moved : Placed (e :: X) W (s.setPort b.port (Safety.settled (s.port b.port))) := by
    rcases cases with ⟨_, same⟩ | ⟨bound, mem⟩
    · refine (x.shift (shifted_setPort x b.port _) (.inr ⟨e, List.mem_cons_self, _, _, call⟩) ?_ ?_ ?_ ?_
        (x.withdrawing b.port) fun _ _ => .rfl) <;> rw [sup_setPort, same]
      · exact fun hs => absurd hs ‹_›
      · exact x.wait b.port
      · exact x.test b.port
      · exact x.withdrawn b.port
    · have nowhere : (Safety.settled (s.port b.port)).sup ≠ .bound ∧ (Safety.settled (s.port b.port)).sup ≠ .waitSlot ∧
          (Safety.settled (s.port b.port)).sup ≠ .test := by
        refine ⟨?_, ?_, ?_⟩ <;> intro hs <;> rw [hs] at mem <;> simp at mem
      refine x.putPort (.inr ⟨e, List.mem_cons_self, _, _, call⟩) (by rw [bound]; decide) nowhere.1 nowhere.2.1
        (iff_of_false nowhere.2.2 (by rw [bound]; decide)) fun hW hw => ?_
      rcases x.withdrawn b.port hW hw with hs | hs <;> rw [bound] at hs <;> cases hs
  have erased := moved.erase (e := e) call (by rw [sup_setPort]; exact settled_sup _)
  refine erased.congr ?_
  rw [State.endCall, State.settle_eq]
  cases ht <;> exact .of_eq rfl rfl rfl rfl rfl rfl rfl

theorem withdrawn_setLine (p : PortNo) (r : LineRecord) : ((s.setLine p r).line p) = r := by
  rw [State.line_setLine, if_pos rfl]

/-- A port that holds no call but one being ended goes to QUARANTINE with its record withdrawn (R179). -/
theorem Placed.lineLost (x : Placed X W s) {p : PortNo}
    (free : (s.port p).sup ≠ .bound ∨ ∃ e ∈ X, ∃ h a, s.callAt e = some (h, p, a)) :
    Placed X W ((s.withdraw p).quarantine p) := by
  have cases := quarantined_cases (s.port p)
  have out : p ∉ ((s.withdraw p).setPort p (quarantined (s.port p))).waiters := by
    rw [show ((s.withdraw p).setPort p (quarantined (s.port p))).waiters = _ from waiters_leaveQueue p]
    exact not_mem_without
  have withdrawn : (((s.withdraw p).setPort p (quarantined (s.port p))).line p).withdrawn = true := line_withdraw p
  rw [State.quarantine_eq]
  show Placed X W ((s.withdraw p).setPort p (quarantined (s.port p)))
  refine x.shift (shifted_record x p (quarantined (s.port p)) { s.line p with withdrawn := true } none) free ?_ ?_ ?_ ?_
    (fun _ => ⟨withdrawn, out⟩) fun _ _ => .rfl <;> rw [sup_setPort]
  · intro hs
    rcases cases with ⟨_, h⟩ | ⟨_, h⟩ <;> rw [h] at hs <;> cases hs
  · refine iff_of_false out fun hs => ?_
    rcases cases with ⟨_, h⟩ | ⟨_, h⟩ <;> rw [h] at hs <;> cases hs
  · refine Iff.trans ?_ (x.test p)
    rcases cases with ⟨h, h'⟩ | ⟨h, h'⟩ <;> rw [h']
    · exact iff_of_true rfl h
    · exact iff_of_false nofun h
  · exact fun _ _ => cases.elim (fun h => .inr h.2) fun h => .inl h.2

theorem Placed.ceased (x : Placed X W s) {p : PortNo} (total : Nat) (hW : p ∉ W) (free : (s.port p).sup ≠ .bound) :
    Placed X W (ceased s p total) := by
  have cases := vacated_cases (s.port p)
  have same : Safety.ceased s p total = (((s.setLine p { LineRecord.initial with total := total }).setIndex p none).leaveQueue
      p).setPort p (vacated (s.port p)) := rfl
  have out : p ∉ (Safety.ceased s p total).waiters := by
    rw [show (Safety.ceased s p total).waiters = _ from waiters_leaveQueue p]
    exact not_mem_without
  have record : ((Safety.ceased s p total).line p).withdrawn = false := by
    show ((s.setLine p { LineRecord.initial with total := total }).line p).withdrawn = false
    rw [withdrawn_setLine]
    rfl
  rw [same] at out record ⊢
  refine x.shift (shifted_record x p (vacated (s.port p)) { LineRecord.initial with total := total } none) (.inl free)
    ?_ ?_ ?_ ?_ (fun hm => absurd hm hW) fun _ _ => .rfl <;> rw [sup_setPort]
  · intro hs
    rcases cases with ⟨_, h⟩ | ⟨_, h⟩ <;> rw [h] at hs <;> cases hs
  · refine iff_of_false out fun hs => ?_
    rcases cases with ⟨_, h⟩ | ⟨_, h⟩ <;> rw [h] at hs <;> cases hs
  · refine Iff.trans ?_ (x.test p)
    rcases cases with ⟨h, h'⟩ | ⟨h, h'⟩ <;> rw [h']
    · exact iff_of_true rfl h
    · exact iff_of_false nofun h
  · exact fun _ hw => absurd (hw.symm.trans record) (by decide)

/-- The call that a search for a port finds. -/
theorem call_callAt {p : PortNo} {e : EntryNo} {b : Binding} (h : s.call p = some (e, b)) :
    s.callAt e = some (b.handle, p, b.phase) := by
  rw [callAt_some (findBinding_found h).1, call_port h]

theorem byHandle_callAt {k : Nat} {e : EntryNo} {b : Binding} (h : s.byHandle k = some (e, b)) :
    s.callAt e = some (k, b.port, b.phase) := by
  obtain ⟨hb, hk⟩ := findBinding_found h
  rw [callAt_some hb, show b.handle = k by simpa using hk]

theorem byHandle_none_callAt {k : Nat} (h : s.byHandle k = none) (e : EntryNo) (p : PortNo) (a : Phase) :
    s.callAt e ≠ some (k, p, a) := by
  intro hc
  obtain ⟨b, hb, hk, _⟩ := callAt_exists hc
  unfold State.byHandle State.findBinding at h
  rw [List.findSome?_eq_none_iff] at h
  have := h e (List.mem_finRange e)
  simp [hb, hk] at this

/-- The record of a live call is withdrawn, its quarantine to come. -/
theorem Placed.withdraw (x : Placed [] W s) {p : PortNo} {e : EntryNo} {b : Binding} (h : s.call p = some (e, b))
    (hp : b.phase ≠ .clearing) : Placed [] (p :: W) (s.withdraw p) := by
  have bound := x.live e List.not_mem_nil _ _ _ (call_callAt h) hp
  have out : p ∉ s.waiters := fun hm => by
    rw [(x.wait p).mp hm] at bound
    cases bound
  have waiters : (s.withdraw p).waiters = s.waiters := by
    rw [show (s.withdraw p).waiters = _ from waiters_leaveQueue p]
    exact List.filter_eq_self.mpr fun r hr => by
      have : r ≠ p := by rintro rfl; exact out hr
      simpa using this
  have line {r : PortNo} (hr : r ≠ p) : (s.withdraw p).line r = s.line r :=
    line_setLine_ne (s := s) hr { s.line p with withdrawn := true }
  exact { x with
    waitOnce := by rw [waiters]; exact x.waitOnce
    wait := fun r => by rw [waiters]; exact x.wait r
    withdrawn := fun r hr hw => by
      obtain ⟨hne, hW⟩ := not_or.mp ((not_congr List.mem_cons).mp hr)
      rw [line hne] at hw
      exact x.withdrawn r hW hw
    withdrawing := fun r hr => by
      rw [waiters]
      by_cases hne : r = p
      · rw [hne]; exact ⟨line_withdraw p, out⟩
      · rw [line hne]; exact x.withdrawing r ((List.mem_cons.mp hr).resolve_left hne) }

theorem Placed.quarantine {p : PortNo} (x : Placed X (p :: W) s) (free : (s.port p).sup ≠ .bound) :
    Placed X W (s.quarantine p) := by
  have cases := quarantined_cases (s.port p)
  obtain ⟨withdrawn, out⟩ := x.withdrawing p List.mem_cons_self
  rw [State.quarantine_eq]
  refine x.shift (shifted_setPort x p _) (.inl free) ?_ ?_ ?_ ?_ (fun _ => ⟨withdrawn, out⟩)
    (fun r hr => by simp [hr]) <;> rw [sup_setPort]
  · intro hs
    rcases cases with ⟨_, h⟩ | ⟨_, h⟩ <;> rw [h] at hs <;> cases hs
  · refine iff_of_false out fun hs => ?_
    rcases cases with ⟨_, h⟩ | ⟨_, h⟩ <;> rw [h] at hs <;> cases hs
  · refine Iff.trans ?_ (x.test p)
    rcases cases with ⟨h, h'⟩ | ⟨h, h'⟩ <;> rw [h']
    · exact iff_of_true rfl h
    · exact iff_of_false nofun h
  · exact fun _ _ => cases.elim (fun h => .inr h.2) fun h => .inl h.2

theorem queued_cons_mem {q : QueueEntry} (h : q ∈ s.ringQueue) : (q.handle, q.port) ∈ s.queued :=
  List.mem_map_of_mem (f := fun q : QueueEntry => (q.handle, q.port)) h

theorem ringers_mem {r : RingEntry} (h : r ∈ s.ringList) : (r.handle, r.port) ∈ s.ringers :=
  List.mem_map_of_mem (f := fun r : RingEntry => (r.handle, r.port)) h

/-- No call in a list stands in the other. -/
theorem Placed.not_queued (x : Placed X W s) (u : Exact X s) {e : EntryNo} {h : Nat} {p : PortNo} {a : Phase}
    (hc : s.callAt e = some (h, p, a)) (ha : a ≠ .ringWait) : h ∉ s.queued.map (·.1) := by
  intro hm
  obtain ⟨⟨k, q⟩, member, rfl⟩ := List.mem_map.mp hm
  obtain ⟨f, hf⟩ := x.queueHas _ _ member
  rw [u.one hf hc, hc] at hf
  cases hf
  exact ha rfl

theorem Placed.not_ringing (x : Placed X W s) (u : Exact X s) {e : EntryNo} {h : Nat} {p : PortNo} {a : Phase}
    (hc : s.callAt e = some (h, p, a)) (ha : a ≠ .ringing) : h ∉ s.ringers.map (·.1) := by
  intro hm
  obtain ⟨⟨k, q⟩, member, rfl⟩ := List.mem_map.mp hm
  obtain ⟨f, hf⟩ := x.ringHas _ _ member
  rw [u.one hf hc, hc] at hf
  cases hf
  exact ha rfl

theorem Placed.shed (x : Placed X W s) (u : Exact X s) {r : RingEntry} {e : EntryNo} {b : Binding} (hr : r ∈ s.ringList)
    (h : s.byHandle r.handle = some (e, b)) : Placed X W (s.shed r e b) := by
  obtain ⟨f, hf⟩ := x.ringHas _ _ (ringers_mem hr)
  have call := byHandle_callAt h
  obtain rfl : f = e := u.one hf call
  have binding := (findBinding_found h).1
  have hX : f ∉ X := fun hm => (x.apart f hm _ _ _ hf).2 (List.mem_map_of_mem (f := Prod.fst) (ringers_mem hr))
  have bound := x.live f hX _ _ _ hf (by decide)
  let c : Binding := { b with phase := .ringWait, tRingwait := some (s.params.tRingwait * secondMs) }
  have left := (x.leave u hf).rephase List.mem_cons_self (b := b) (c := c) binding ⟨rfl, rfl, rfl⟩
  have exact : Exact X ((unringing s r.handle).writeEntry f (some c)) :=
    (sameHeld_writeEntry (s := unringing s r.handle) binding (c := c) ⟨rfl, rfl, rfl⟩).exact
      (SameHeld.exact (s := s) (t := unringing s r.handle) (.of_eq rfl rfl rfl rfl) u)
  have port : b.port = r.port := by
    have same := call.symm.trans hf
    simp only [Option.some.injEq, Prod.mk.injEq] at same
    exact same.2.1
  have now : ((unringing s r.handle).writeEntry f (some c)).callAt f = some (r.handle, r.port, .ringWait) := by
    rw [callAt_writeEntry, if_pos rfl, ← port, ← show b.handle = r.handle by simpa using (findBinding_found h).2]
    rfl
  refine left.join hX exact (.of_eq rfl rfl rfl rfl rfl) now bound (.inl ⟨rfl, ?_, rfl⟩)
  have queue : ((unringing s r.handle).writeEntry f (some c)).queued = s.queued :=
    (queued_unringing (s := s) r.handle).trans (queued_filter _ (x.not_queued u hf (by decide)))
  rw [queue]
  exact .refl _

theorem Placed.startRing (x : Placed X W s) (u : Exact X s) {q : QueueEntry} {e : EntryNo} {b : Binding}
    (hq : q ∈ s.ringQueue) (h : s.byHandle q.handle = some (e, b)) : Placed X W (s.startRing q e b) := by
  obtain ⟨f, hf⟩ := x.queueHas _ _ (queued_cons_mem hq)
  have call := byHandle_callAt h
  obtain rfl : f = e := u.one hf call
  have binding := (findBinding_found h).1
  have hX : f ∉ X := fun hm => (x.apart f hm _ _ _ hf).1 (List.mem_map_of_mem (f := Prod.fst) (queued_cons_mem hq))
  have bound := x.live f hX _ _ _ hf (by decide)
  let c : Binding := { b with phase := .ringing, tRingwait := none }
  have left := (x.leave u hf).rephase List.mem_cons_self (b := b) (c := c) binding ⟨rfl, rfl, rfl⟩
  have exact : Exact X ((unringing s q.handle).writeEntry f (some c)) :=
    (sameHeld_writeEntry (s := unringing s q.handle) binding (c := c) ⟨rfl, rfl, rfl⟩).exact
      (SameHeld.exact (s := s) (t := unringing s q.handle) (.of_eq rfl rfl rfl rfl) u)
  have port : b.port = q.port := by
    have same := call.symm.trans hf
    simp only [Option.some.injEq, Prod.mk.injEq] at same
    exact same.2.1
  have now : ((unringing s q.handle).writeEntry f (some c)).callAt f = some (q.handle, q.port, .ringing) := by
    rw [callAt_writeEntry, if_pos rfl, ← port, ← show b.handle = q.handle by simpa using (findBinding_found h).2]
    rfl
  refine left.join hX exact (.of_eq rfl rfl rfl rfl rfl) now bound (.inr ⟨rfl, rfl, ?_⟩)
  have list : ((unringing s q.handle).writeEntry f (some c)).ringers = s.ringers :=
    (ringers_unringing (s := s) q.handle).trans (ringers_filter _ (x.not_ringing u hf (by decide)))
  rw [list]
  have joined : (s.startRing q f b).ringers = s.ringers ++ [(q.handle, q.port)] := by
    unfold State.ringers
    show (s.ringList ++ [_]).map _ = _
    rw [List.map_append]
    rfl
  rw [joined]
  exact List.perm_append_singleton _ _

theorem Part.placed {a b : Stage} (m : Part a b) (u : Exact a.leaving a.state)
    (x : Placed a.leaving a.withdrawing a.state) : Placed b.leaving b.withdrawing b.state := by
  cases m with
  | aside k => exact x.congr (.of_alike k)
  | leave h => exact x.leave u (callAt_some h)
  | @leaveSlot X W s n e b hn h =>
    have left := x.leave u (callAt_some (findBinding_found h).1)
    exact left.congr (.of_eq rfl rfl rfl rfl rfl rfl rfl)
  | slotLost => exact x.congr (.of_eq rfl rfl rfl rfl rfl rfl rfl)
  | @dropRinging X W s k h =>
    have none : k ∉ s.ringers.map (·.1) := by
      intro hm
      obtain ⟨⟨_, p⟩, member, rfl⟩ := List.mem_map.mp hm
      obtain ⟨f, hf⟩ := x.ringHas _ _ member
      exact byHandle_none_callAt h f _ _ hf
    exact x.congr ⟨fun _ => rfl, fun _ => rfl, rfl, rfl,
      (ringers_unringing (s := s) k).trans (ringers_filter k none), rfl, fun _ => rfl⟩
  | @dropQueued X W s k h =>
    have none : k ∉ s.queued.map (·.1) := by
      intro hm
      obtain ⟨⟨_, p⟩, member, rfl⟩ := List.mem_map.mp hm
      obtain ⟨f, hf⟩ := x.queueHas _ _ member
      exact byHandle_none_callAt h f _ _ hf
    exact x.congr ⟨fun _ => rfl, fun _ => rfl, rfl,
      (queued_unringing (s := s) k).trans (queued_filter k none), rfl, rfl, fun _ => rfl⟩
  | shed hr h => exact x.shed u (List.mem_of_getLast? hr) h
  | startRing hq h => exact x.startRing u (hq ▸ List.mem_cons_self) h
  | endCall h ht => exact x.endCall h ht
  | lineLost h =>
    refine x.lineLost (h.imp_right ?_)
    rintro ⟨e, he, b, hb, rfl⟩
    exact ⟨e, he, _, _, callAt_some hb⟩
  | @ceased X W s p total hc h =>
    refine x.ceased total (fun hm => ?_) h
    exact absurd (hc.2.symm.trans (x.withdrawing p hm).1) (by decide)
  | withdraw h hp => exact x.withdraw h hp
  | quarantine h => exact x.quarantine h

theorem Parts.placed (m : Parts ⟨[], [], s⟩ ⟨[], [], t⟩) (u : Exact [] s) (x : Placed [] [] s) : Placed [] [] t :=
  (m.keeps (P := fun a => Exact a.leaving a.state ∧ Placed a.leaving a.withdrawing a.state)
    (fun m ⟨u, x⟩ => ⟨(m.exact u).1, m.placed u x⟩) ⟨u, x⟩).2

end Sys2Proof.Machine
end

section
/-!
PROOFS. CallsAndQueuesAgree, concluded: link loss, warm reset and the moves.
-/
namespace Sys2Proof.Machine

open Sys2Proof.Safety

variable {s t : State}

/-! ## Link loss and warm reset -/

/-- No call, no queue, an empty bus, and every port where its record lets it be at rest. -/
theorem placed_of_empty (calls : NoCalls s) (queue : s.ringQueue = []) (list : s.ringList = []) (owq : s.owq = [])
    (bus : s.bus = none) (sup : ∀ p, (s.port p).sup ∉ [SupState.bound, .waitSlot, .test])
    (withdrawn : ∀ p, (s.line p).withdrawn = true → (s.port p).sup = .quarantine) : Placed [] [] s := by
  have none (e : EntryNo) : s.callAt e = none := by simp [State.callAt, calls e]
  have nothing {e : EntryNo} {c : Nat × PortNo × Phase} (h : s.callAt e = some c) : False := by simp [none e] at h
  have queued : s.queued = [] := by rw [State.queued, queue]; rfl
  have ringers : s.ringers = [] := by rw [State.ringers, list]; rfl
  have waiters : s.waiters = [] := by rw [State.waiters, owq]; rfl
  have state (p : PortNo) : (s.port p).sup ≠ .bound ∧ (s.port p).sup ≠ .waitSlot ∧ (s.port p).sup ≠ .test := by
    simpa using sup p
  exact {
    ports := fun e f h k p a b hc => (nothing hc).elim
    bound := fun p hp => absurd hp (state p).1
    live := fun e _ h p a hc => (nothing hc).elim
    waitOnce := by rw [waiters]; exact List.nodup_nil
    wait := fun p => by rw [waiters]; exact iff_of_false List.not_mem_nil (state p).2.1
    queueOnce := by rw [queued]; exact List.nodup_nil
    queueHas := fun h p hm => by rw [queued] at hm; cases hm
    queueAll := fun e _ h p hc => (nothing hc).elim
    ringOnce := by rw [ringers]; exact List.nodup_nil
    ringHas := fun h p hm => by rw [ringers] at hm; cases hm
    ringAll := fun e _ h p hc => (nothing hc).elim
    apart := nofun
    test := fun p => by rw [bus]; exact iff_of_false (state p).2.2 nofun
    withdrawn := fun p _ hw => .inl (withdrawn p hw)
    withdrawing := nofun }

/-- What is kept of the ports, the wait queue and the bus while the calls retire one after the other. -/
structure Housed (s : State) : Prop where
  bound : ∀ p, (s.port p).sup = .bound → ∃ e h a, s.callAt e = some (h, p, a)
  wait : ∀ p, p ∈ s.waiters ↔ (s.port p).sup = .waitSlot
  test : ∀ p, (s.port p).sup = .test ↔ s.bus.map (·.port) = some p
  withdrawn : ∀ p, (s.line p).withdrawn = true → (s.port p).sup = .quarantine ∨ (s.port p).sup = .test

theorem Placed.housed (x : Placed [] [] s) : Housed s where
  bound p hp := by
    obtain ⟨e, h, a, hc, _⟩ := x.bound p hp
    exact ⟨e, h, a, hc⟩
  wait := x.wait
  test := x.test
  withdrawn p := x.withdrawn p List.not_mem_nil

/-- One port and its record change, the calls stay. -/
theorem Housed.change (x : Housed s) {p : PortNo} (calls : ∀ e, t.callAt e = s.callAt e)
    (sup : ∀ r, r ≠ p → (t.port r).sup = (s.port r).sup)
    (line : ∀ r, r ≠ p → (t.line r).withdrawn = (s.line r).withdrawn)
    (waiters : ∀ r, r ≠ p → (r ∈ t.waiters ↔ r ∈ s.waiters))
    (bus : ∀ r, r ≠ p → (t.bus.map (·.port) = some r ↔ s.bus.map (·.port) = some r))
    (unbound : (t.port p).sup ≠ .bound) (wait : p ∈ t.waiters ↔ (t.port p).sup = .waitSlot)
    (test : (t.port p).sup = .test ↔ t.bus.map (·.port) = some p)
    (withdrawn : (t.line p).withdrawn = true → (t.port p).sup = .quarantine ∨ (t.port p).sup = .test) : Housed t where
  bound r hr := by
    have other : r ≠ p := by rintro rfl; exact unbound hr
    obtain ⟨e, h, a, hc⟩ := x.bound r (sup r other ▸ hr)
    exact ⟨e, h, a, (calls e).trans hc⟩
  wait r := by
    by_cases hr : r = p
    · rw [hr]; exact wait
    · rw [waiters r hr, sup r hr]; exact x.wait r
  test r := by
    by_cases hr : r = p
    · rw [hr]; exact test
    · rw [sup r hr, bus r hr]; exact x.test r
  withdrawn r hw := by
    by_cases hr : r = p
    · rw [hr] at hw ⊢; exact withdrawn hw
    · rw [sup r hr]; exact x.withdrawn r (line r hr ▸ hw)

theorem Housed.congr (x : Housed s) (k : SamePlaces s t) : Housed t where
  bound p hp := by
    obtain ⟨e, h, a, hc⟩ := x.bound p (k.sup p ▸ hp)
    exact ⟨e, h, a, (k.calls e).trans hc⟩
  wait p := by rw [k.waiters, k.sup]; exact x.wait p
  test p := by rw [k.sup, k.bus]; exact x.test p
  withdrawn p hw := by rw [k.sup]; exact x.withdrawn p (k.withdrawn p ▸ hw)

theorem foldl_lock (ws : List Waiting) (t : State) (p : PortNo) :
    ((ws.foldl (fun t w => t.place w.port .lockout) t).port p).sup =
      if p ∈ ws.map (·.port) then .lockout else (t.port p).sup := by
  induction ws generalizing t with
  | nil => rfl
  | cons w ws ih =>
    rw [List.foldl_cons, ih, List.map_cons]
    by_cases hp : p ∈ ws.map (·.port)
    · rw [if_pos hp, if_pos (List.mem_cons_of_mem _ hp)]
    · rw [if_neg hp, State.place, State.port_setPort]
      by_cases hw : p = w.port
      · rw [if_pos hw, place_sup, if_pos (hw ▸ List.mem_cons_self)]
      · rw [if_neg hw, if_neg (by simp [hw, hp])]

theorem foldl_lock_rest (ws : List Waiting) (t : State) :
    (ws.foldl (fun t w => t.place w.port .lockout) t).entries = t.entries ∧
      (ws.foldl (fun t w => t.place w.port .lockout) t).lines = t.lines ∧
      (ws.foldl (fun t w => t.place w.port .lockout) t).bus = t.bus := by
  induction ws generalizing t with
  | nil => exact ⟨rfl, rfl, rfl⟩
  | cons w ws ih => exact ih _

theorem Housed.emptyQueue (x : Housed s) : Housed s.emptyQueue := by
  obtain ⟨entries, lines, bus⟩ := foldl_lock_rest s.owq s
  have sup (p : PortNo) : (s.emptyQueue.port p).sup = if p ∈ s.waiters then .lockout else (s.port p).sup :=
    foldl_lock s.owq s p
  have elsewhere {p : PortNo} {st : SupState} (h : (s.emptyQueue.port p).sup = st) (hl : st ≠ .lockout) :
      p ∉ s.waiters ∧ (s.port p).sup = st := by
    rw [sup] at h
    split at h
    · exact absurd h.symm hl
    · exact ⟨‹_›, h⟩
  constructor
  · intro p hp
    obtain ⟨e, h, a, hc⟩ := x.bound p (elsewhere hp nofun).2
    exact ⟨e, h, a, by unfold State.callAt; rw [State.entry_congr (show s.emptyQueue.entries = _ from entries)]; exact hc⟩
  · intro p
    refine iff_of_false List.not_mem_nil fun h => ?_
    obtain ⟨out, wait⟩ := elsewhere h nofun
    exact out ((x.wait p).mpr wait)
  · intro p
    rw [show s.emptyQueue.bus = s.bus from bus, ← x.test]
    refine ⟨fun h => (elsewhere h nofun).2, fun h => ?_⟩
    rw [sup, if_neg]
    · exact h
    · intro hm
      rw [(x.wait p).mp hm] at h
      cases h
  · intro p hw
    rw [State.line_congr (show s.emptyQueue.lines = _ from lines)] at hw
    have stands := x.withdrawn p hw
    rw [sup, if_neg]
    · exact stands
    · intro hm
      rw [(x.wait p).mp hm] at stands
      rcases stands with h | h <;> cases h

theorem Loss.housed (m : Loss true s t) (x : Housed s) : Housed t := by
  cases m with
  | aside k => exact x.congr (.of_alike k)
  | @endCall e b h =>
    have cases := settled_cases (s.port b.port)
    have rest {r : PortNo} (hr : r ≠ b.port) : (s.endCall e b).port r = s.port r := by
      rw [State.endCall, State.settle_eq, port_setPort_ne hr]
      rfl
    have here : ((s.endCall e b).port b.port).sup = (Safety.settled (s.port b.port)).sup := by
      rw [State.endCall, State.settle_eq, sup_setPort]
      rfl
    have same : (s.endCall e b).waiters = s.waiters ∧ (s.endCall e b).bus = s.bus ∧ (s.endCall e b).lines = s.lines := by
      rw [State.endCall, State.settle_eq]
      exact ⟨rfl, rfl, rfl⟩
    have calls (f : EntryNo) : (s.endCall e b).callAt f = (s.writeEntry e none).callAt f := by
      rw [State.endCall, State.settle_eq]
      rfl
    obtain ⟨waiters, bus, lines⟩ := same
    have known (st : SupState) (hst : st = .waitSlot ∨ st = .test ∨ st = .quarantine) :
        (Safety.settled (s.port b.port)).sup = st ↔ (s.port b.port).sup = st := by
      rcases cases with ⟨_, h⟩ | ⟨hb, hm⟩
      · rw [h]
      · rw [hb]
        refine iff_of_false (fun h => ?_) (by rcases hst with rfl | rfl | rfl <;> decide)
        rw [h] at hm
        rcases hst with rfl | rfl | rfl <;> simp at hm
    constructor
    · intro p hp
      have other : p ≠ b.port := by rintro rfl; exact endCall_sup s e b hp
      rw [rest other] at hp
      obtain ⟨f, k, a, hc⟩ := x.bound p hp
      refine ⟨f, k, a, ?_⟩
      rw [calls, callAt_writeEntry, if_neg]
      · exact hc
      · rintro rfl
        rw [callAt_some h] at hc
        exact other (by simpa using (congrArg (Option.map fun c : Nat × PortNo × Phase => c.2.1) hc).symm)
    · intro p
      rw [waiters, x.wait]
      by_cases hp : p = b.port
      · rw [hp, here, known _ (.inl rfl)]
      · rw [rest hp]
    · intro p
      rw [bus, ← x.test]
      by_cases hp : p = b.port
      · rw [hp, here, known _ (.inr (.inl rfl))]
      · rw [rest hp]
    · intro p hw
      rw [State.line_congr lines] at hw
      have stands := x.withdrawn p hw
      by_cases hp : p = b.port
      · rw [hp] at stands ⊢
        rw [here, known _ (.inr (.inr rfl)), known _ (.inr (.inl rfl))]
        exact stands
      · rw [rest hp]; exact stands
  | emptied _ hs => cases hs
  | lineLost p =>
    have cases := quarantined_cases (s.port p)
    have out : p ∉ (s.withdraw p).waiters := by
      rw [show (s.withdraw p).waiters = _ from waiters_leaveQueue p]
      exact not_mem_without
    rw [State.quarantine_eq]
    show Housed ((s.withdraw p).setPort p (quarantined (s.port p)))
    refine x.change (p := p) (fun _ => rfl) (fun r hr => by rw [port_setPort_ne hr]; rfl) (fun r hr => ?_) (fun r hr => ?_)
      (fun _ _ => .rfl) ?_ ?_ ?_ (fun _ => ?_)
    · exact congrArg LineRecord.withdrawn (line_setLine_ne (s := s) hr { s.line p with withdrawn := true })
    · rw [show ((s.withdraw p).setPort p (quarantined (s.port p))).waiters = _ from waiters_leaveQueue p]
      exact mem_without hr
    · rw [sup_setPort]
      rcases cases with ⟨_, h⟩ | ⟨_, h⟩ <;> rw [h] <;> decide
    · rw [sup_setPort]
      refine iff_of_false out ?_
      rcases cases with ⟨_, h⟩ | ⟨_, h⟩ <;> rw [h] <;> decide
    · rw [sup_setPort]
      refine Iff.trans ?_ (x.test p)
      rcases cases with ⟨h, h'⟩ | ⟨h, h'⟩ <;> rw [h']
      · exact iff_of_true rfl h
      · exact iff_of_false nofun h
    · rw [sup_setPort]
      exact cases.elim (fun h => .inr h.2) fun h => .inl h.2
  | @ceased p total =>
    have cases := vacated_cases (s.port p)
    have here : ((Safety.ceased s p total).port p).sup = (vacated (s.port p)).sup := sup_setPort (s := s) p _
    have out : p ∉ (Safety.ceased s p total).waiters := by
      rw [show (Safety.ceased s p total).waiters = _ from waiters_leaveQueue p]
      exact not_mem_without
    have record : ((Safety.ceased s p total).line p).withdrawn = false :=
      congrArg LineRecord.withdrawn (withdrawn_setLine (s := s) p { LineRecord.initial with total := total })
    refine x.change (p := p) (fun _ => rfl) (fun r hr => congrArg Port.sup (port_setPort_ne (s := s) hr _)) (fun r hr => ?_)
      (fun r hr => ?_) (fun _ _ => .rfl) ?_ ?_ ?_ (fun hw => absurd (hw.symm.trans record) (by decide)) <;> try rw [here]
    · exact congrArg LineRecord.withdrawn (line_setLine_ne (s := s) hr { LineRecord.initial with total := total })
    · rw [show (Safety.ceased s p total).waiters = _ from waiters_leaveQueue p]
      exact mem_without hr
    · rcases cases with ⟨_, h⟩ | ⟨_, h⟩ <;> rw [h] <;> decide
    · refine iff_of_false out ?_
      rcases cases with ⟨_, h⟩ | ⟨_, h⟩ <;> rw [h] <;> decide
    · refine Iff.trans ?_ (x.test p)
      rcases cases with ⟨h, h'⟩ | ⟨h, h'⟩ <;> rw [h']
      · exact iff_of_true rfl h
      · exact iff_of_false nofun h
  | slotEnd _ ht => cases ht <;> exact x.congr (.of_eq rfl rfl rfl rfl rfl rfl rfl)
  | dequeued => exact x.emptyQueue
  | @released p q hb _ hq =>
    have elsewhere : q.sup ≠ .bound ∧ q.sup ≠ .waitSlot ∧ q.sup ≠ .test := by
      rcases hq with ⟨_, h⟩ | ⟨_, h⟩
      · rw [h]; decide
      · refine ⟨?_, ?_, ?_⟩ <;> intro hs <;> rw [hs] at h <;> simp at h
    have testing : (s.port p).sup = .test := (x.test p).mpr hb
    refine x.change (t := ({ s with bus := none } : State).setPort p q) (p := p) (fun _ => rfl)
      (fun r hr => by rw [port_setPort_ne hr]; rfl) (fun _ _ => rfl) (fun _ _ => .rfl) (fun r hr => ?_) ?_ ?_ ?_ (fun hw => ?_) <;>
      try rw [sup_setPort]
    · exact iff_of_false nofun fun h => hr (Option.some.inj (h.symm.trans hb))
    · exact elsewhere.1
    · exact iff_of_false (fun hm => by rw [(x.wait p).mp hm] at testing; cases testing) elsewhere.2.1
    · exact iff_of_false elsewhere.2.2 nofun
    · rcases hq with ⟨_, h⟩ | ⟨h, _⟩
      · exact .inl h
      · exact absurd (h.symm.trans hw) (by decide)
  | cleared hs => cases hs
  | placed _ hs => cases hs

/-- Nothing rings and nothing waits to ring. -/
def Unrung (s : State) : Prop := s.ringQueue = [] ∧ s.ringList = []

theorem Loss.unrung {settle : Bool} (m : Loss settle s t) (h : Unrung s) : Unrung t := by
  obtain ⟨queue, list⟩ := h
  cases m with
  | aside k => exact ⟨k.ringQueue.trans queue, List.map_eq_nil_iff.mp (by rw [k.ringList, list]; rfl)⟩
  | endCall => rw [State.endCall, State.settle_eq]; exact ⟨queue, list⟩
  | emptied => exact ⟨queue, list⟩
  | lineLost => rw [State.quarantine_eq]; exact ⟨queue, list⟩
  | ceased => exact ⟨queue, list⟩
  | slotEnd _ ht => cases ht <;> exact ⟨queue, list⟩
  | dequeued =>
    have kept (xs : List Waiting) (t : State) (ht : Unrung t) : Unrung (xs.foldl (fun t w => t.place w.port .lockout) t) := by
      induction xs generalizing t with
      | nil => exact ht
      | cons w xs ih => exact ih _ ht
    exact kept s.owq s ⟨queue, list⟩
  | released => exact ⟨queue, list⟩
  | cleared => exact ⟨queue, list⟩
  | placed => exact ⟨queue, list⟩

theorem placed_linkLoss (x : Placed [] [] s) : Placed [] [] s.linkLoss := by
  obtain ⟨queue, list⟩ := (losses_linkLoss s).keeps Loss.unrung (⟨rfl, rfl⟩ : Unrung s.unring)
  obtain ⟨owq, bus⟩ := linkLoss_free s
  have calls := (linkLoss_empty s).1
  have start : Housed s.unring := ⟨x.housed.bound, x.housed.wait, x.housed.test, x.housed.withdrawn⟩
  have housed : Housed s.linkLoss := (losses_linkLoss s).keeps Loss.housed start
  have waiters : s.linkLoss.waiters = [] := by rw [State.waiters, owq]; rfl
  have sup (p : PortNo) : (s.linkLoss.port p).sup ≠ .bound ∧ (s.linkLoss.port p).sup ≠ .waitSlot ∧
      (s.linkLoss.port p).sup ≠ .test := by
    refine ⟨fun h => ?_, fun h => ?_, fun h => ?_⟩
    · obtain ⟨e, _, _, hc⟩ := housed.bound p h
      simp [State.callAt, calls e] at hc
    · have waits := (housed.wait p).mpr h
      rw [waiters] at waits
      cases waits
    · have tests := (housed.test p).mp h
      rw [bus] at tests
      cases tests
  exact placed_of_empty calls queue list owq bus (fun p => by simpa using sup p)
    fun p hw => (housed.withdrawn p hw).resolve_right (sup p).2.2

/-- A port as a warm reset leaves it (R48). -/
def Rested (s : State) (p : PortNo) : Prop :=
  (s.port p).sup ∉ [SupState.bound, .waitSlot, .test] ∧ ((s.line p).withdrawn = true → (s.port p).sup = .quarantine)

theorem rested_congr {p : PortNo} (hp : t.port p = s.port p) (hl : t.line p = s.line p) (h : Rested s p) : Rested t p := by
  unfold Rested
  rw [hp, hl]
  exact h

theorem rested_of_tables (h : t.tables = s.tables) {p : PortNo} : Rested s p → Rested t p :=
  rested_congr (State.port_congr (congrArg Tables.ports h) p) (State.line_congr (congrArg Tables.lines h) p)

theorem bus_of_tables (h : t.tables = s.tables) : t.bus = s.bus := congrArg Tables.bus h

theorem bus_of_still (h : t.still = s.still) : t.bus = s.bus := congrArg Still.bus h

theorem resetPort_rested (h : NoCalls s) (p : PortNo) :
    Rested (s.resetPort p) p ∧ ∀ r, r ≠ p → (s.resetPort p).port r = s.port r ∧ (s.resetPort p).line r = s.line r := by
  unfold State.resetPort
  dsimp only
  have wiped (r : PortNo) (hr : r ≠ p) :
      (s.setPort p { s.port p with parkPending := false, pulses := 0, makeTimer := none, injector := .idle }).port r =
        s.port r := port_setPort_ne hr _
  have wipedLine (r : PortNo) :
      (s.setPort p { s.port p with parkPending := false, pulses := 0, makeTimer := none, injector := .idle }).line r =
        s.line r := rfl
  have calls : NoCalls
      (s.setPort p { s.port p with parkPending := false, pulses := 0, makeTimer := none, injector := .idle }) := h
  generalize s.setPort p { s.port p with parkPending := false, pulses := 0, makeTimer := none, injector := .idle } = t
    at wiped wipedLine calls ⊢
  have read (r : PortNo) (hr : r ≠ p) : (t.readToPlace p).port r = t.port r ∧ (t.readToPlace p).line r = t.line r := by
    unfold State.readToPlace
    split
    · obtain ⟨_, tables⟩ := lineActions_noCalls (settle := true) calls p
      rw [State.port_congr (congrArg Tables.ports tables), State.line_congr (congrArg Tables.lines tables),
        State.quarantine_eq]
      exact ⟨port_setPort_ne hr _, line_setLine_ne hr _⟩
    · exact ⟨rfl, rfl⟩
  rw [show (if t.placementFault p then t.lineActions p else t) = t.readToPlace p from rfl]
  generalize t.readToPlace p = u at read ⊢
  have placed (st : SupState) (hst : st ∉ [SupState.bound, .waitSlot, .test])
      (hw : (u.line p).withdrawn = true → st = .quarantine) :
      Rested (u.place p st) p ∧ ∀ r, r ≠ p → (u.place p st).port r = s.port r ∧ (u.place p st).line r = s.line r := by
    have sup : ((u.place p st).port p).sup = st := by rw [State.place, sup_setPort, place_sup]
    refine ⟨⟨by rw [sup]; exact hst, fun h => sup.trans (hw h)⟩, fun r hr => ?_⟩
    obtain ⟨port, line⟩ := read r hr
    exact ⟨(port_setPort_ne hr _).trans (port.trans (wiped r hr)), line.trans (wipedLine r)⟩
  split
  · exact placed .quarantine (by decide) fun _ => rfl
  · next hw =>
    refine placed (u.returnState p) (fun hm => ?_) fun h => absurd h hw
    have state := returnState_mem u p
    generalize u.returnState p = st at hm state
    simp only [List.mem_cons, List.not_mem_nil, or_false] at hm state
    rcases hm with rfl | rfl | rfl <;> simp at state

theorem placed_warmReset (s : State) : Placed [] [] s.warmReset := by
  obtain ⟨queue, list⟩ := (losses_warmReset s).keeps Loss.unrung (⟨rfl, rfl⟩ : Unrung s.unring)
  have calls := (warmReset_empty s).1
  have owq : s.warmReset.owq = [] := (warmReset_halted s).keeps Loss.owq_nil rfl
  have bus : s.warmReset.bus = none := by
    have kept (t : State) : (allPorts.foldl State.resetPort t).bus = t.bus :=
      bus_of_still (still_foldl t _ still_resetPort allPorts)
    exact (bus_of_tables (warmReset_tables s)).trans ((kept s.halted).trans rfl)
  have rested (p : PortNo) : Rested s.warmReset p := by
    refine rested_of_tables (warmReset_tables s) ?_
    refine foldl_reaches (I := NoCalls) (P := Rested) State.resetPort
      (fun t p ht => (losses_resetPort ht p).keeps Loss.noCalls ht) (fun t p ht => (resetPort_rested ht p).1)
      (fun t a r ht hr => ?_) (xs := allPorts) (x := p) (List.mem_finRange p) s.halted (noCalls_halted s)
    obtain ⟨here, rest⟩ := resetPort_rested ht a
    by_cases h : r = a
    · rw [h]; exact here
    · obtain ⟨port, line⟩ := rest r h
      exact rested_congr port line hr
  exact placed_of_empty calls queue list owq bus (fun p => (rested p).1) fun p => (rested p).2

theorem placed_cleared (h : Cleared s) : Placed [] [] s := by
  have station (p : PortNo) : (s.port p).sup = .vacant ∧ (s.line p).withdrawn = false ∨
      (s.port p).sup = .quarantine ∧ (s.line p).withdrawn = true :=
    (h.ports p).imp_left fun ⟨hs, _, hw⟩ => ⟨hs, hw⟩
  refine placed_of_empty h.entries h.ringQueue h.ringList h.owq h.bus (fun p => ?_) fun p hw => ?_
  · rcases station p with ⟨hs, _⟩ | ⟨hs, _⟩ <;> rw [hs] <;> decide
  · rcases station p with ⟨_, hn⟩ | ⟨hs, _⟩
    · rw [hn] at hw; cases hw
    · exact hs

/-! ## Moves -/

variable {e : EntryNo} {b c : Binding} {p : PortNo}

theorem Placed.call_unique (x : Placed [] [] s) {a : Phase} {h : Nat} (hc : s.callAt e = some (h, p, a)) :
    ∃ b, s.call p = some (e, b) := by
  have some : s.call p ≠ none := by
    intro none
    obtain ⟨b, hb, _, hp, _⟩ := callAt_exists hc
    unfold State.call State.findBinding at none
    rw [List.findSome?_eq_none_iff] at none
    have := none e (List.mem_finRange e)
    simp [hb, hp] at this
  obtain ⟨⟨f, b⟩, hf⟩ := Option.ne_none_iff_exists'.mp some
  rw [x.ports e f _ _ _ _ _ hc (call_callAt hf)]
  exact ⟨b, hf⟩

/-- A port without a call outside CLEARING is not BOUND. -/
theorem Placed.unbound (x : Placed [] [] s) (h : ∀ e b, s.call p = some (e, b) → b.phase = .clearing) :
    (s.port p).sup ≠ .bound := by
  intro hs
  obtain ⟨e, k, a, hc, ha⟩ := x.bound p hs
  obtain ⟨b, hb⟩ := x.call_unique hc
  have same := (call_callAt hb).symm.trans hc
  simp only [Option.some.injEq, Prod.mk.injEq] at same
  exact ha.resolve_right List.not_mem_nil (same.2.2 ▸ h e b hb)

theorem Placed.uncalled (x : Placed [] [] s) (h : s.call p = none) : (s.port p).sup ≠ .bound :=
  x.unbound fun e b hc => by rw [h] at hc; cases hc

/-- A port that is not BOUND and holds no call in CLEARING holds none. -/
theorem Placed.no_call (x : Placed [] [] s) (hs : (s.port p).sup ≠ .bound) (hc : s.hasClearing p = false) (f : EntryNo)
    (h : Nat) (a : Phase) : s.callAt f ≠ some (h, p, a) := by
  intro hf
  obtain ⟨b, hb⟩ := x.call_unique hf
  have same := (call_callAt hb).symm.trans hf
  simp only [Option.some.injEq, Prod.mk.injEq] at same
  have clearing : a = .clearing := by
    refine Classical.byContradiction fun ha => ?_
    exact hs (x.live f List.not_mem_nil _ _ _ hf ha)
  unfold State.hasClearing at hc
  rw [hb] at hc
  simp [same.2.2, clearing] at hc

theorem waiting_iff : s.waiting p = true ↔ p ∈ s.waiters := by
  unfold State.waiting State.waiters
  rw [List.any_eq_true, List.mem_map]
  exact ⟨fun ⟨w, hw, h⟩ => ⟨w, hw, by simpa using h⟩, fun ⟨w, hw, h⟩ => ⟨w, hw, by simpa using h⟩⟩

theorem Port.Free.mem {q : Port} (h : q.Free) : q.sup ∈ [SupState.idle, .lockout, .parked] := h.1

/-- A record that is not withdrawn, its port standing elsewhere than in QUARANTINE or TEST. -/
theorem Placed.in_use (x : Placed [] [] s) (hq : (s.port p).sup ≠ .quarantine) (ht : (s.port p).sup ≠ .test) :
    (s.line p).withdrawn = false := by
  cases hw : (s.line p).withdrawn
  · rfl
  · exact absurd (x.withdrawn p List.not_mem_nil hw) (not_or.mpr ⟨hq, ht⟩)

theorem free_elsewhere {st : SupState} (h : st ∈ [SupState.idle, .lockout, .parked]) :
    st ≠ .bound ∧ st ≠ .waitSlot ∧ st ≠ .test ∧ st ≠ .quarantine := by
  simp only [List.mem_cons, List.not_mem_nil, or_false] at h
  rcases h with rfl | rfl | rfl <;> decide

end Sys2Proof.Machine
end

section
/-!
PROOFS. CallsAndQueuesAgree, concluded: the moves.
-/
namespace Sys2Proof.Machine

open Sys2Proof.Safety

variable {s t : State} {e : EntryNo} {b c : Binding} {p : PortNo} {q : Port}

/-! ## Ports without a call -/

theorem Placed.unqueue (x : Placed [] [] s) (hs : (s.port p).sup = .waitSlot) (hq : q.sup ≠ .bound) (hw : q.sup ≠ .waitSlot)
    (ht : q.sup ≠ .test) : Placed [] [] ((s.leaveQueue p).setPort p q) := by
  refine x.shift (shifted_leave x p q) (.inl (by rw [hs]; decide)) ?_ ?_ ?_ ?_ nofun fun _ _ => .rfl <;> rw [sup_setPort]
  · exact fun h => absurd h hq
  · rw [show ((s.leaveQueue p).setPort p q).waiters = _ from waiters_leaveQueue p]
    exact iff_of_false not_mem_without hw
  · refine iff_of_false ht fun h => ?_
    have test := (x.test p).mpr h
    rw [hs] at test
    cases test
  · intro _ withdrawn
    have used := x.in_use (p := p) (by rw [hs]; decide) (by rw [hs]; decide)
    exact absurd (used.symm.trans withdrawn) (by decide)

theorem Placed.queue (x : Placed [] [] s) {w : Waiting} (hs : (s.port p).sup = .idle) (hw : w.port = p)
    (hq : q.sup = .waitSlot) : Placed [] [] ({ s with owq := s.owq ++ [w] }.setPort p q) := by
  have waiters : ({ s with owq := s.owq ++ [w] }.setPort p q).waiters = s.waiters ++ [p] := by
    show (s.owq ++ [w]).map (·.port) = _
    rw [List.map_append, ← hw]
    rfl
  have out : p ∉ s.waiters := fun hm => by
    rw [(x.wait p).mp hm] at hs
    cases hs
  have shifted : Shifted s ({ s with owq := s.owq ++ [w] }.setPort p q) p := by
    refine ⟨fun _ => rfl, rfl, rfl, fun r h => by rw [port_setPort_ne h]; rfl, fun _ _ => rfl, ?_, fun r h => ?_, fun _ _ => .rfl⟩
    · rw [waiters]
      refine List.nodup_append.mpr ⟨x.waitOnce, by simp, fun a ha b hb => ?_⟩
      rw [List.mem_singleton.mp hb]
      rintro rfl
      exact out ha
    · rw [waiters]
      simp [h]
  refine x.shift shifted (.inl (by rw [hs]; decide)) ?_ ?_ ?_ ?_ nofun fun _ _ => .rfl <;> rw [sup_setPort, hq]
  · exact nofun
  · rw [waiters]
    exact iff_of_true (by simp) rfl
  · refine iff_of_false nofun fun h => ?_
    have test := (x.test p).mpr h
    rw [hs] at test
    cases test
  · intro _ withdrawn
    have used := x.in_use (p := p) (by rw [hs]; decide) (by rw [hs]; decide)
    exact absurd (used.symm.trans withdrawn) (by decide)

/-- The bus is freed and its port placed (R172). -/
theorem Placed.release (x : Placed [] [] s) (hs : (s.port p).sup = .test)
    (hq : ((s.line p).withdrawn = true ∧ q.sup = .quarantine) ∨
      ((s.line p).withdrawn = false ∧ q.sup ∈ [SupState.vacant, .parked, .lockout, .idle])) :
    Placed [] [] ({ s with bus := none }.setPort p q) := by
  have elsewhere : q.sup ≠ .bound ∧ q.sup ≠ .waitSlot ∧ q.sup ≠ .test := by
    rcases hq with ⟨_, h⟩ | ⟨_, h⟩
    · rw [h]; decide
    · refine ⟨?_, ?_, ?_⟩ <;> intro hs <;> rw [hs] at h <;> simp at h
  have shifted : Shifted s (({ s with bus := none } : State).setPort p q) p := by
    obtain ⟨calls, queued, ringers, sup, line, once, waiters, _⟩ := shifted_setPort x p q
    exact ⟨calls, queued, ringers, sup, line, once, waiters, fun r hr =>
      iff_of_false nofun fun h => hr (Option.some.inj (h.symm.trans ((x.test p).mp hs)))⟩
  refine x.shift shifted (.inl (by rw [hs]; decide)) ?_ ?_ ?_ ?_ nofun fun _ _ => .rfl <;> rw [sup_setPort]
  · exact fun h => absurd h elsewhere.1
  · refine iff_of_false (fun hm => ?_) elsewhere.2.1
    rw [(x.wait p).mp hm] at hs
    cases hs
  · exact iff_of_false elsewhere.2.2 nofun
  · intro _ hw
    rcases hq with ⟨_, h⟩ | ⟨h, _⟩
    · exact .inl h
    · exact absurd (h.symm.trans hw) (by decide)

/-- A port without a call outside CLEARING is connected to the bus (R168). -/
theorem Placed.connect (x : Placed [] [] s) {h : TestHold} (hb : s.bus = none) (hs : (s.port p).sup ≠ .bound)
    (hh : h.port = p) (hq : q.sup = .test) : Placed [] [] ({ s.leaveQueue p with bus := some h }.setPort p q) := by
  have shifted : Shifted s (({ s.leaveQueue p with bus := some h } : State).setPort p q) p := by
    obtain ⟨calls, queued, ringers, sup, line, once, waiters, _⟩ := shifted_leave x p q
    refine ⟨calls, queued, ringers, sup, line, once, waiters, fun r hr => ?_⟩
    rw [hb]
    exact iff_of_false (fun h => hr (by simpa [hh] using h.symm)) nofun
  refine x.shift shifted (.inl hs) ?_ ?_ ?_ ?_ nofun fun _ _ => .rfl <;> rw [sup_setPort, hq]
  · exact nofun
  · rw [show (({ s.leaveQueue p with bus := some h } : State).setPort p q).waiters = _ from waiters_leaveQueue p]
    exact iff_of_false not_mem_without nofun
  · exact iff_of_true rfl (congrArg some hh)
  · exact fun _ _ => .inr rfl

/-! ## Calls -/

/-- A call out of the lists, in another phase. -/
theorem Placed.apartAs (x : Placed [] [] s) (u : Exact [] s) (h : (s.entry e).binding = some b) (hc : SameCall b c) :
    Placed [e] [] ((unringing s b.handle).writeEntry e (some c)) ∧
      ((unringing s b.handle).writeEntry e (some c)).callAt e = some (b.handle, b.port, c.phase) := by
  refine ⟨(x.leave u (callAt_some h)).rephase List.mem_cons_self (b := b) h hc, ?_⟩
  obtain ⟨handle, port, _⟩ := hc
  rw [callAt_writeEntry, if_pos rfl, Option.map_some, handle, port]

/-- GRANT, ANSWER, and the answer of a ringing call: the call goes on, in no list. -/
theorem Placed.goOn (x : Placed [] [] s) (u : Exact [] s) (h : (s.entry e).binding = some b) (hc : SameCall b c)
    (hp : b.phase ≠ .clearing) (hq : c.phase ∈ [Phase.dialling, .connected]) :
    Placed [] [] ((unringing s b.handle).writeEntry e (some c)) := by
  obtain ⟨apart, call⟩ := x.apartAs u h hc
  have bound := x.live e List.not_mem_nil _ _ _ (callAt_some h) hp
  refine apart.settled call ?_ (iff_of_true bound ?_)
  · intro hm
    simp only [List.mem_cons, List.not_mem_nil, or_false] at hm hq
    rcases hq with h | h <;> rw [h] at hm <;> simp at hm
  · intro hm
    rw [hm] at hq
    simp at hq

/-- A call enters CLEARING, its port going where no call, no queue and no bus holds it. -/
theorem Placed.clear (x : Placed [] [] s) (u : Exact [] s) (h : (s.entry e).binding = some b) (hc : SameCall b c)
    (hp : b.phase ≠ .clearing) (hcp : c.phase = .clearing) (hq : q.Free) :
    Placed [] [] (((unringing s b.handle).writeEntry e (some c)).setPort b.port q) := by
  obtain ⟨apart, call⟩ := x.apartAs u h hc
  have bound := x.live e List.not_mem_nil _ _ _ (callAt_some h) hp
  obtain ⟨hb, hw, ht, _⟩ := free_elsewhere hq.mem
  have used := x.in_use (p := b.port) (by rw [bound]; decide) (by rw [bound]; decide)
  have moved : Placed [e] [] (((unringing s b.handle).writeEntry e (some c)).setPort b.port q) :=
    apart.putPort (.inr ⟨e, List.mem_cons_self, _, _, call⟩)
      (fun h => by rw [show (s.port b.port).sup = .waitSlot from h] at bound; cases bound) hb hw
      (iff_of_false ht fun h => by rw [show (s.port b.port).sup = .test from h] at bound; cases bound)
      fun _ hw => absurd (used.symm.trans hw) (by decide)
  exact moved.settled call (by rw [hcp]; decide) (iff_of_false (by rw [sup_setPort]; exact hb) fun h => h hcp)

/-- The same by a forced test connection (R169). -/
theorem Placed.clearTest (x : Placed [] [] s) (u : Exact [] s) {h : TestHold} (he : (s.entry e).binding = some b)
    (hc : SameCall b c) (hs : (s.port b.port).sup = .bound) (hcp : c.phase = .clearing) (hb : s.bus = none)
    (hh : h.port = b.port) (hq : q.sup = .test) :
    Placed [] [] ({ ((unringing s b.handle).writeEntry e (some c)).setPort b.port q with bus := some h }) := by
  obtain ⟨apart, call⟩ := x.apartAs u he hc
  have shifted : Shifted ((unringing s b.handle).writeEntry e (some c))
      { ((unringing s b.handle).writeEntry e (some c)).setPort b.port q with bus := some h } b.port := by
    obtain ⟨calls, queued, ringers, sup, line, once, waiters, _⟩ := shifted_setPort apart b.port q
    refine ⟨calls, queued, ringers, sup, line, once, waiters, fun r hr => ?_⟩
    rw [show ((unringing s b.handle).writeEntry e (some c)).bus = none from hb]
    exact iff_of_false (fun same => hr (by simpa [hh] using same.symm)) nofun
  have here : (({ ((unringing s b.handle).writeEntry e (some c)).setPort b.port q with bus := some h } : State).port
      b.port).sup = .test := (sup_setPort b.port q).trans hq
  have moved : Placed [e] [] { ((unringing s b.handle).writeEntry e (some c)).setPort b.port q with bus := some h } := by
    refine apart.shift shifted (.inr ⟨e, List.mem_cons_self, _, _, call⟩) ?_ ?_ ?_ ?_ nofun fun _ _ => .rfl <;> rw [here]
    · exact nofun
    · refine iff_of_false (fun hm => ?_) nofun
      rw [(x.wait b.port).mp hm] at hs
      cases hs
    · exact iff_of_true rfl (congrArg some hh)
    · exact fun _ _ => .inr rfl
  exact moved.settled call (by rw [hcp]; decide) (iff_of_false (by rw [here]; decide) fun h => h hcp)

/-- The record of a live call found damaged (R179). -/
theorem Placed.lineCleared (x : Placed [] [] s) (u : Exact [] s) (h : s.call p = some (e, b)) (hc : SameCall b c)
    (hcp : c.phase = .clearing) :
    Placed [] [] ((((unringing s b.handle).writeEntry e (some c)).withdraw p).quarantine p) := by
  obtain rfl := call_port h
  obtain ⟨apart, call⟩ := x.apartAs u (findBinding_found h).1 hc
  generalize (unringing s b.handle).writeEntry e (some c) = v at apart call ⊢
  have lost := apart.lineLost (p := b.port) (.inr ⟨e, List.mem_cons_self, _, _, call⟩)
  refine lost.settled (e := e) (h := b.handle) (p := b.port) (a := c.phase) ?_ (by rw [hcp]; decide)
    (iff_of_false ?_ fun h => h hcp)
  · rw [State.quarantine_eq]
    exact call
  · rw [State.quarantine_eq, sup_setPort]
    rcases quarantined_cases ((v.withdraw b.port).port b.port) with ⟨_, h⟩ | ⟨_, h⟩ <;> rw [h] <;> decide

/-- A call begins on a port that holds none (R71, R78, R101). -/
theorem Placed.begin {n : SlotNo} (x : Placed [] [] s) (f : Fresh s p n e b) (u : Exact [] s)
    (hs : (s.port p).sup = .idle ∨ (s.port p).sup = .waitSlot) (hc : s.hasClearing p = false) (hq : q.sup = .bound) :
    Placed [e] [] (((s.writeEntry e (some b)).leaveQueue p).setPort p q) ∧
      (((s.writeEntry e (some b)).leaveQueue p).setPort p q).callAt e = some (b.handle, p, b.phase) := by
  have elsewhere : (s.port p).sup ≠ .bound ∧ (s.port p).sup ≠ .test ∧ (s.port p).sup ≠ .quarantine := by
    rcases hs with h | h <;> rw [h] <;> decide
  obtain ⟨hb, ht, hqu⟩ := elsewhere
  have used := x.in_use hqu ht
  obtain ⟨_, _, free, _⟩ := handlesAreChosen s u.next.1 u.next.2
  have bare : s.callAt e = none := by rw [State.callAt, emptyEntry_none f.empty]; rfl
  have inserted : Placed [e] [] (s.writeEntry e (some b)) := by
    refine x.insert bare (fun g r a => ?_) fun g h a => ?_
    · rw [f.handle]; exact byHandle_none_callAt free g r a
    · rw [f.port]; exact x.no_call hb hc g h a
  have call : (s.writeEntry e (some b)).callAt e = some (b.handle, p, b.phase) := by
    rw [callAt_writeEntry, if_pos rfl, Option.map_some, f.port]
  refine ⟨?_, call⟩
  refine inserted.shift (shifted_leave inserted p q) (.inl hb) ?_ ?_ ?_ ?_ nofun fun _ _ => .rfl <;> rw [sup_setPort, hq]
  · exact fun _ => ⟨e, List.mem_cons_self, _, _, call⟩
  · rw [show (((s.writeEntry e (some b)).leaveQueue p).setPort p q).waiters = _ from waiters_leaveQueue p]
    exact iff_of_false not_mem_without nofun
  · exact iff_of_false nofun fun h => ht ((x.test p).mpr h)
  · exact fun _ hw => absurd (used.symm.trans hw) (by decide)

/-- A port outside the wait queue has nothing to leave. -/
theorem waiters_out (h : p ∉ s.waiters) : (s.leaveQueue p).waiters = s.waiters := by
  rw [waiters_leaveQueue]
  exact List.filter_eq_self.mpr fun r hr => by
    have : r ≠ p := by rintro rfl; exact h hr
    simpa using this

/-- Fifteen calls hold fifteen slots, and none is left FREE (R67, log entry 17). -/
theorem full_table (u : Exact [] s) (he : s.emptyEntry = none) (n : SlotNo) : n ∉ s.pool := by
  intro hn
  have call (e : EntryNo) : ∃ h m, s.heldBy e = some (h, m) := by
    have some : (s.entry e).binding ≠ none := by
      have := List.find?_eq_none.mp he e (List.mem_finRange e)
      simpa [Option.isNone_iff_eq_none] using this
    obtain ⟨b, hb⟩ := Option.ne_none_iff_exists'.mp some
    exact ⟨_, _, heldBy_some hb⟩
  obtain ⟨handle, call⟩ := Classical.skolem.mp call
  obtain ⟨slot, holds⟩ := Classical.skolem.mp call
  have apart (e f : EntryNo) (same : slot e = slot f) : e = f := u.slots e f _ _ _ (holds e) (same ▸ holds f)
  have hit : ∃ e, slot e = n := by
    refine Classical.byContradiction fun free => ?_
    have once : (n :: allEntries.map slot).Nodup :=
      List.nodup_cons.mpr ⟨fun h => free (by simpa [allEntries] using h), nodup_map apart (List.nodup_finRange 15)⟩
    have few := once.length_le_of_subset (l₂ := List.finRange 15) fun m _ => List.mem_finRange m
    rw [List.length_cons, List.length_map, show allEntries = List.finRange 15 from rfl, List.length_finRange] at few
    omega
  obtain ⟨e, rfl⟩ := hit
  have bound := (u.held e List.not_mem_nil _ _ (holds e)).1
  rw [(u.pool _).mp hn] at bound
  cases bound

/-! ## Records written -/

/-- A record in use is written, its port keeping the bus or going where no call and no queue holds it. -/
theorem Placed.rewritten (x : Placed [] [] s) (hb : (s.port p).sup ≠ .bound) (hw : (s.port p).sup ≠ .waitSlot)
    (entries : t.entries = s.entries) (owq : t.owq = s.owq) (queue : t.ringQueue = s.ringQueue)
    (list : t.ringList = s.ringList) (bus : t.bus = s.bus) (ports : ∀ r, r ≠ p → t.port r = s.port r)
    (lines : ∀ r, r ≠ p → t.line r = s.line r) (used : (t.line p).withdrawn = false)
    (state : ((s.port p).sup = .test ∧ (t.port p).sup = .test) ∨
      ((s.port p).sup ≠ .test ∧ (t.port p).sup ∈ [SupState.idle, .lockout, .parked])) : Placed [] [] t := by
  have waiters : t.waiters = s.waiters := by unfold State.waiters; rw [owq]
  have shifted : Shifted s t p :=
    ⟨fun f => by unfold State.callAt; rw [State.entry_congr entries], by unfold State.queued; rw [queue],
      by unfold State.ringers; rw [list], fun r hr => by rw [ports r hr], fun r hr => by rw [lines r hr],
      waiters ▸ x.waitOnce, fun _ _ => by rw [waiters], fun _ _ => by rw [bus]⟩
  have out : p ∉ t.waiters := fun hm => hw ((x.wait p).mp (waiters ▸ hm))
  refine x.shift shifted (.inl hb) (fun h => ?_) (iff_of_false out fun h => ?_) ?_
    (fun _ h => absurd (h.symm.trans used) (by decide)) nofun fun _ _ => .rfl
  · rcases state with ⟨_, hs⟩ | ⟨_, hs⟩
    · rw [hs] at h; cases h
    · exact absurd h (free_elsewhere hs).1
  · rcases state with ⟨_, hs⟩ | ⟨_, hs⟩
    · rw [hs] at h; cases h
    · exact absurd h (free_elsewhere hs).2.1
  · rw [bus]
    refine Iff.trans ?_ (x.test p)
    rcases state with ⟨hs, ht⟩ | ⟨hs, ht⟩
    · exact iff_of_true ht hs
    · exact iff_of_false (free_elsewhere ht).2.2.1 hs

/-- A port is marked or not, and placed. -/
theorem marked_place {st : SupState} (on : Bool) (h : st ∈ [SupState.idle, .lockout, .parked]) :
    (∀ r, r ≠ p → ((s.mark p on).place p st).port r = s.port r) ∧
      (((s.mark p on).place p st).port p).sup ∈ [SupState.idle, .lockout, .parked] := by
  refine ⟨fun r hr => (port_setPort_ne hr _).trans (port_setPort_ne hr _), ?_⟩
  rw [State.place, sup_setPort, place_sup]
  exact h

theorem free_state (s : State) (p : PortNo) :
    (if s.parkable p then SupState.parked else .idle) ∈ [SupState.idle, .lockout, .parked] := by split <;> decide

theorem placeWritten_port (s : State) (p : PortNo) : (∀ r, r ≠ p → (s.placeWritten p).port r = s.port r) ∧
    (((s.port p).sup = .test ∧ ((s.placeWritten p).port p).sup = .test) ∨
      ((s.port p).sup ≠ .test ∧ ((s.placeWritten p).port p).sup ∈ [SupState.idle, .lockout, .parked])) := by
  unfold State.placeWritten
  dsimp only
  split
  · next h => exact ⟨fun _ _ => rfl, .inl ⟨h, h⟩⟩
  · next h =>
    refine ⟨fun r hr => port_setPort_ne hr _, .inr ⟨by rw [h]; decide, ?_⟩⟩
    rw [State.mark, sup_setPort, h]
    decide
  · next h =>
    have other : (s.port p).sup ≠ .test := by rw [h]; decide
    split
    · obtain ⟨rest, here⟩ := marked_place (s := s) (p := p) (st := .lockout) (s.parkable p) (by decide)
      exact ⟨rest, .inr ⟨other, here⟩⟩
    · obtain ⟨rest, here⟩ := marked_place (s := s) (p := p) false (free_state s p)
      exact ⟨rest, .inr ⟨other, here⟩⟩
  · next h _ _ =>
    obtain ⟨rest, here⟩ := marked_place (s := s) (p := p) false (free_state s p)
    exact ⟨rest, .inr ⟨h, here⟩⟩

theorem ceaseWithdrawnCall_port (s : State) (p : PortNo) : (∀ r, r ≠ p → (s.ceaseWithdrawnCall p).port r = s.port r) ∧
    (((s.port p).sup = .test ∧ ((s.ceaseWithdrawnCall p).port p).sup = .test) ∨
      ((s.port p).sup ≠ .test ∧ ((s.ceaseWithdrawnCall p).port p).sup ∈ [SupState.idle, .lockout, .parked])) := by
  unfold State.ceaseWithdrawnCall
  dsimp only
  have same : (s.writeLine p { s.line p with status := .ceasing, key := none }).ports = s.ports := rfl
  generalize s.writeLine p { s.line p with status := .ceasing, key := none } = t at same ⊢
  have port (r : PortNo) : t.port r = s.port r := State.port_congr same r
  simp only [← port]
  split
  · next h => exact ⟨fun _ _ => rfl, .inl ⟨h, h⟩⟩
  · next h =>
    split
    · obtain ⟨rest, here⟩ := marked_place (s := t) (p := p) (st := .lockout) (t.parkable p) (by decide)
      exact ⟨rest, .inr ⟨h, here⟩⟩
    · obtain ⟨rest, here⟩ := marked_place (s := t) (p := p) false (free_state t p)
      exact ⟨rest, .inr ⟨h, here⟩⟩

theorem placeWritten_rest (s : State) (p : PortNo) : (s.placeWritten p).entries = s.entries ∧
    (s.placeWritten p).owq = s.owq ∧ (s.placeWritten p).ringQueue = s.ringQueue ∧
    (s.placeWritten p).ringList = s.ringList ∧ (s.placeWritten p).bus = s.bus ∧ (s.placeWritten p).lines = s.lines := by
  unfold State.placeWritten
  dsimp only
  repeat' split
  all_goals exact ⟨rfl, rfl, rfl, rfl, rfl, rfl⟩

theorem Placed.writeService (x : Placed [] [] s) {st : LineStatus} (k : LineClass) (w : LineWrite) (hc : s.call p = none)
    (hq : (s.port p).sup ≠ .waitSlot) : Placed [] [] (s.writeService p st k w) := by
  unfold State.writeService
  have record : ((s.writeLine p ((s.line p).rewritten st k w)).line p).withdrawn = false :=
    congrArg LineRecord.withdrawn (withdrawn_setLine p _)
  have rest {r : PortNo} (hr : r ≠ p) : (s.writeLine p ((s.line p).rewritten st k w)).line r = s.line r :=
    line_setLine_ne hr _
  obtain ⟨entries, owq, queue, list, bus, lines⟩ :=
    placeWritten_rest ((s.writeLine p ((s.line p).rewritten st k w)).setIndex p (some w.key)) p
  obtain ⟨elsewhere, here⟩ :=
    placeWritten_port ((s.writeLine p ((s.line p).rewritten st k w)).setIndex p (some w.key)) p
  exact x.rewritten (x.uncalled hc) hq entries owq queue list bus elsewhere
    (fun r hr => (State.line_congr lines r).trans (rest hr)) ((congrArg _ (State.line_congr lines p)).trans record) here

theorem Placed.ceaseWithdrawnCall (x : Placed [] [] s) (hw : (s.line p).withdrawn = true) :
    Placed [] [] (s.ceaseWithdrawnCall p) := by
  have record : ((s.writeLine p { s.line p with status := .ceasing, key := none }).line p).withdrawn = false :=
    congrArg LineRecord.withdrawn (withdrawn_setLine p _)
  have rest {r : PortNo} (hr : r ≠ p) : (s.writeLine p { s.line p with status := .ceasing, key := none }).line r = s.line r :=
    line_setLine_ne hr _
  obtain ⟨elsewhere, here⟩ := ceaseWithdrawnCall_port s p
  have same : (s.ceaseWithdrawnCall p).entries = s.entries ∧ (s.ceaseWithdrawnCall p).owq = s.owq ∧
      (s.ceaseWithdrawnCall p).ringQueue = s.ringQueue ∧ (s.ceaseWithdrawnCall p).ringList = s.ringList ∧
      (s.ceaseWithdrawnCall p).bus = s.bus ∧
      (s.ceaseWithdrawnCall p).lines = (s.writeLine p { s.line p with status := .ceasing, key := none }).lines := by
    unfold State.ceaseWithdrawnCall
    dsimp only
    repeat' split
    all_goals exact ⟨rfl, rfl, rfl, rfl, rfl, rfl⟩
  obtain ⟨entries, owq, queue, list, bus, lines⟩ := same
  have station := x.withdrawn p List.not_mem_nil hw
  refine x.rewritten ?_ ?_ entries owq queue list bus elsewhere
    (fun r hr => (State.line_congr lines r).trans (rest hr)) ((congrArg _ (State.line_congr lines p)).trans record) here
  all_goals rcases station with h | h <;> rw [h] <;> decide

end Sys2Proof.Machine
end

section
/-!
PROOFS. CallsAndQueuesAgree, settled: every move keeps the calls and the queues placed.
-/
namespace Sys2Proof.Machine

open Sys2Proof.Safety

variable {s t : State} {e : EntryNo} {b c : Binding} {p : PortNo} {q : Port}

/-- A port that waits stands in WAIT_SLOT, and no other does. -/
theorem Placed.waits (x : Placed [] [] s) (h : s.waiting p = true ∨ (s.port p).sup = .waitSlot) :
    (s.port p).sup = .waitSlot := h.elim (fun hw => (x.wait p).mp (waiting_iff.mp hw)) id

/-- Outside the ringing phases there is nothing to leave. -/
theorem Placed.unringing_same (x : Placed [] [] s) (u : Exact [] s) (h : (s.entry e).binding = some b)
    (hq : b.phase ≠ .ringWait) (hr : b.phase ≠ .ringing) :
    (unringing s b.handle).queued = s.queued ∧ (unringing s b.handle).ringers = s.ringers :=
  ⟨(queued_unringing b.handle).trans (queued_filter _ (x.not_queued u (callAt_some h) hq)),
    (ringers_unringing b.handle).trans (ringers_filter _ (x.not_ringing u (callAt_some h) hr))⟩

/-- A call in SEIZING begins (R71, R101). -/
theorem Placed.seize {n : SlotNo} (x : Placed [] [] s) (u : Exact [] s) (f : Fresh s p n e b)
    (hs : (s.port p).sup = .idle ∨ (s.port p).sup = .waitSlot) (hc : s.hasClearing p = false) (hb : b.phase = .seizing)
    (hq : q.sup = .bound) : Placed [] [] (((s.writeEntry e (some b)).leaveQueue p).setPort p q) := by
  obtain ⟨begun, call⟩ := x.begin f u hs hc hq
  exact begun.settled call (by rw [hb]; decide) (iff_of_true ((sup_setPort p q).trans hq) (by rw [hb]; decide))

/-- A call in RING_WAIT begins, at the tail of the ring queue (R78). -/
theorem Placed.offered {n : SlotNo} {r : QueueEntry} (x : Placed [] [] s) (u : Exact [] s) (f : Fresh s p n e b)
    (hs : (s.port p).sup = .idle) (hc : s.hasClearing p = false) (hb : b.phase = .ringWait) (hq : q.sup = .bound)
    (hh : r.handle = b.handle) (hp : r.port = p) :
    Placed [] [] { s.bindTo p n e b q with ringQueue := s.ringQueue ++ [r] } := by
  obtain ⟨begun, call⟩ := x.begin f u (.inl hs) hc hq
  have out : p ∉ s.waiters := fun hm => by
    rw [(x.wait p).mp hm] at hs
    cases hs
  have bound : (s.bindTo p n e b q).waiters = (s.leaveQueue p).waiters := (waiters_out out).symm
  have here : ((s.bindTo p n e b q).port p).sup = .bound := (sup_setPort p q).trans hq
  have apart : Placed [e] [] (s.bindTo p n e b q) :=
    begun.congr ⟨fun _ => rfl, fun _ => rfl, bound, rfl, rfl, rfl, fun _ => rfl⟩
  have call : (s.bindTo p n e b q).callAt e = some (b.handle, p, .ringWait) := by rw [← hb]; exact call
  refine apart.join List.not_mem_nil (agrees_bindTo u f q).exact (.of_eq rfl rfl rfl rfl rfl) call here (.inl ⟨rfl, ?_, rfl⟩)
  have joined : ({ s.bindTo p n e b q with ringQueue := s.ringQueue ++ [r] } : State).queued = s.queued ++ [(b.handle, p)] := by
    unfold State.queued
    rw [List.map_append, ← hh, ← hp]
    rfl
  rw [joined]
  exact List.perm_append_singleton _ _

theorem Move.placed (m : Move s t) (u : Exact [] s) (x : Placed [] [] s) : Placed [] [] t := by
  cases m with
  | aside k => exact x.congr (.of_alike k)
  | @connect e b c h hc hp hq =>
    have outside : b.phase ≠ .clearing ∧ b.phase ≠ .ringWait ∧ b.phase ≠ .ringing := by
      simp only [List.mem_cons, List.not_mem_nil, or_false] at hp
      rcases hp with h | h <;> rw [h] <;> decide
    obtain ⟨queued, ringers⟩ := x.unringing_same u h outside.2.1 outside.2.2
    exact (x.goOn u h hc outside.1 hq).congr
      ⟨fun _ => rfl, fun _ => rfl, rfl, queued.symm, ringers.symm, rfl, fun _ => rfl⟩
  | @pass _ a v hv ht =>
    have opened : Placed [] [] v := by
      refine Placed.congr (s := { s with available := a }) ?_ (.of_alike hv)
      exact x.congr (.of_eq rfl rfl rfl rfl rfl rfl rfl)
    have exact : Exact [] v := by
      have k := SameHeld.of_alike hv
      exact SameHeld.exact (s := s) ⟨k.calls, k.slotState, k.slotHandle, k.pool, k.next⟩ u
    exact (parts_budgetPass.placed exact opened).congr (.of_alike (.of_tables ht))
  | place p hs hq =>
    obtain ⟨hb, hw, ht, hu⟩ := free_elsewhere hs
    obtain ⟨hb', hw', ht', _⟩ := free_elsewhere hq.mem
    exact x.putPort (.inl hb) hw hb' hw' (iff_of_false ht' ht) fun _ h => absurd ((x.in_use hu ht).symm.trans h) (by decide)
  | unqueue p h hq =>
    obtain ⟨hb, hw, ht, _⟩ := free_elsewhere hq.mem
    exact x.unqueue (x.waits h) hb hw ht
  | join p h hw hq => exact x.queue h hw hq
  | @bindIdle p n e b q f hs hc hb hq =>
    have out : p ∉ s.waiters := fun hm => by
      rw [(x.wait p).mp hm] at hs
      cases hs
    exact (x.seize u f (.inl hs) hc hb hq).congr
      ⟨fun _ => rfl, fun _ => rfl, (waiters_out out).symm, rfl, rfl, rfl, fun _ => rfl⟩
  | @bindWaiting p n e b q f hw hc hb hq =>
    exact (x.seize u f (.inr (x.waits (.inl hw))) hc hb hq).congr (.of_eq rfl rfl rfl rfl rfl rfl rfl)
  | bindFull hn he => exact absurd hn (full_table u he _)
  | offer f hs hc hb hq hr => exact x.offered u f hs hc hb hq hr.1 hr.2.1
  | @answer e b c h hc hp hq =>
    have rings : b.phase ≠ .clearing := by
      simp only [List.mem_cons, List.not_mem_nil, or_false] at hp
      rcases hp with h | h <;> rw [h] <;> decide
    exact (x.goOn u h hc rings (by simp [hq])).congr (.of_eq rfl rfl rfl rfl rfl rfl rfl)
  | clear e h hc hp hcp hq => exact (x.clear u h hc hp hcp hq).congr (.of_eq rfl rfl rfl rfl rfl rfl rfl)
  | clearTest e h hc hs hcp hb hh hq =>
    exact (x.clearTest u h hc hs hcp hb hh hq).congr (.of_eq rfl rfl rfl rfl rfl rfl rfl)
  | lineLost p h => exact x.lineLost (.inl (x.unbound h))
  | @lineCleared p e b c h hc hp hcp =>
    refine (x.lineCleared u h hc hcp).congr ?_
    rw [State.quarantine_eq, State.quarantine_eq]
    exact .of_eq rfl rfl rfl rfl rfl rfl rfl
  | lineFailed h hp hd => exact (parts_lineFailed h hp hd).placed u x
  | requarantine p hs hw =>
    have used := x.in_use (p := p) (by rw [hs]; decide) (by rw [hs]; decide)
    exact absurd (used.symm.trans hw) (by decide)
  | bindingActions outer e => exact (parts_bindingActions outer e).placed u x
  | slotActions n => exact (parts_slotActions n).placed u x
  | suspect => exact x.congr (.of_eq rfl rfl rfl rfl rfl rfl rfl)
  | retireSteps h => exact (parts_retireSteps h).placed u x
  | ceaseNow p h =>
    rw [ceaseNow_eq]
    exact x.ceased _ List.not_mem_nil (x.uncalled h)
  | ceaseWithdrawnCall p hw => exact x.ceaseWithdrawnCall hw
  | ceasing p hw =>
    refine x.congr ⟨fun _ => rfl, fun _ => rfl, rfl, rfl, rfl, rfl, fun r => ?_⟩
    by_cases hr : r = p
    · rw [hr, hw]
      exact congrArg LineRecord.withdrawn (withdrawn_setLine p _)
    · exact congrArg LineRecord.withdrawn (line_setLine_ne hr _)
  | writeService p k hc hq => exact x.writeService k _ hc hq
  | release p h hq => exact x.release (h.elim id (x.test p).mpr) hq
  | connectIdle p hb hs hh hq => exact x.connect hb (hs.elim id x.uncalled) hh hq
  | blockFree => exact x.congr (.of_eq rfl rfl rfl rfl rfl rfl rfl)
  | blockSuspect => exact x.congr (.of_eq rfl rfl rfl rfl rfl rfl rfl)
  | freeSlot => exact x.congr (.of_eq rfl rfl rfl rfl rfl rfl rfl)
  | linkLoss => exact placed_linkLoss x
  | warmReset => exact placed_warmReset s
  | cleared k => exact placed_cleared k

theorem Moves.placed (m : Moves s t) (u : Exact [] s) (x : Placed [] [] s) : Placed [] [] t := by
  induction m with
  | refl => exact x
  | tail before m ih => exact m.placed (Moves.agrees before u).exact ih

/-- Settles O59: a step is a run of moves, and each keeps every port, call, list and the bus in agreement. -/
theorem callsAndQueuesAgree : Obligations.CallsAndQueuesAgree := by
  intro s t pool bindings calls hs
  exact placed_iff.mp ((moves_step hs).placed (exact_iff.mpr ⟨pool, bindings⟩) (placed_iff.mpr calls))

end Sys2Proof.Machine
end

section
/-!
PROOFS. The front of the queue, the reset values, the requests of a busy engine and the placing of a port
(StepTakesFront, ResetValues, PromisesHoldAtReset, EngineBusyRefuses, FeedGovernsTheHook).
-/
namespace Sys2Proof.Machine

open Sys2Proof.Safety

/-- Settles O1: `step` looks at the queue first. -/
theorem stepTakesFront : Obligations.StepTakesFront := by
  intro c rest s h
  unfold step
  rw [h]

/-! ## Reset -/

theorem reset_port (p : PortNo) : State.reset.port p = Port.initial := by
  unfold State.port State.reset
  exact Vector.getElem_replicate p.isLt

theorem reset_line (p : PortNo) : State.reset.line p = LineRecord.initial := by
  unfold State.line State.reset
  exact Vector.getElem_replicate p.isLt

theorem reset_indexKey (p : PortNo) : State.reset.indexKey p = none := by
  unfold State.indexKey State.reset
  exact Vector.getElem_replicate p.isLt

theorem reset_slot (n : SlotNo) : State.reset.slot n = Slot.initial := by
  unfold State.slot State.reset
  exact Vector.getElem_replicate n.isLt

theorem reset_entry (e : EntryNo) : State.reset.entry e = Entry.initial := by
  unfold State.entry State.reset
  exact Vector.getElem_replicate e.isLt

/-- Settles O3: each table holds its initial record at every place, and the other items are written out in
`State.reset`. -/
theorem resetValues : Obligations.ResetValues := by
  have unfed (p : PortNo) : (State.reset.port p).sup.fed = false := by rw [reset_port]; rfl
  have plain (p : PortNo) : (State.reset.port p).sup ≠ .test := by rw [reset_port]; decide
  refine ⟨fun p => ?_, reset_slot, by decide, reset_entry, ?_⟩
  · have silent : State.reset.tone p = false := by simp [State.tone, reset_port, Port.initial]
    refine ⟨reset_line p, reset_indexKey p, ?_⟩
    rw [applied_eq_latch (plain p), latch_unfed (unfed p), reset_port]
    exact ⟨rfl, rfl, rfl, rfl, rfl, rfl, rfl, rfl, rfl, silent⟩
  · and_intros <;> rfl

/-- Settles O60: nothing is provisioned, no call stands, every slot is in the pool, and A is 0 for want of a battery
reading. -/
theorem promisesHoldAtReset : Obligations.PromisesHoldAtReset := by
  have uncalled (e : EntryNo) : (State.reset.entry e).binding = none := by rw [reset_entry]; rfl
  have nobody {e : EntryNo} {b : Binding} (h : b ∈ (State.reset.entry e).binding) : False := by
    rw [uncalled] at h
    cases h
  refine ⟨by decide, by decide, by decide, by decide, ⟨List.nodup_finRange 15, fun n => ?_⟩,
    ⟨fun e b h => (nobody h).elim, fun e f b h => (nobody h).elim, by decide, by decide⟩, fun n h => ?_,
    ⟨rfl, nofun, nofun, fun p => ?_, by decide⟩, ⟨fun p => ?_, fun p q k h => ?_⟩, fun p => ⟨fun h => ?_, fun _ => ?_⟩,
    ?_⟩
  · rw [reset_slot]
    exact iff_of_true (List.mem_finRange n) rfl
  · rw [reset_slot] at h
    cases h
  · rw [reset_line]
    decide
  · rw [reset_indexKey, reset_line]
    rfl
  · rw [reset_indexKey] at h
    cases h
  · rw [reset_port] at h
    cases h
  · rw [reset_port]
    exact ⟨rfl, rfl⟩
  · refine placed_iff.mp (placed_of_empty uncalled rfl rfl rfl rfl (fun p => ?_) fun p h => ?_)
    · rw [reset_port]
      decide
    · rw [reset_line] at h
      cases h

/-! ## A busy engine -/

/-- Settles O11: each of the eight requests asks first whether the engine is IDLE. -/
theorem engineBusyRefuses : Obligations.EngineBusyRefuses := by
  intro s tag hl hq hb
  have refused (f : State → State) := takeMessage_provision_busy hl hq hb tag f
  exact ⟨fun a w => refused _, fun a => refused _, fun f l => refused _, fun v => setCursor_busy hl hq tag hb v,
    fun w r d => setAdvance_busy hl hq tag hb w r d, fun v => setPrefix_busy hl hq hb tag v,
    fun n ds => setCadence_busy hl hq tag hb n ds, fun p v => setParam_busy hl hq tag v hb p⟩

/-! ## A port between supervision states -/

theorem fed_iff {st : SupState} : st.fed = true ↔ st ≠ .vacant ∧ st ≠ .parked := by cases st <;> decide

theorem unfed_iff {st : SupState} : st.fed = false ↔ st = .vacant ∨ st = .parked := by cases st <;> decide

/-- Settles O14: a port loses its feed, gains it, or keeps it. -/
theorem feedGovernsTheHook : Obligations.FeedGovernsTheHook := by
  intro q st
  cases new : st.fed with
  | false =>
    have unfed := unfed_iff.mp new
    rw [place_unfed q new]
    exact ⟨rfl, rfl, rfl, rfl, rfl, fun _ => ⟨rfl, rfl, rfl, rfl⟩, fun hv hp => absurd unfed (not_or.mpr ⟨hv, hp⟩)⟩
  | true =>
    obtain ⟨hv, hp⟩ := fed_iff.mp new
    cases old : q.sup.fed with
    | false =>
      have unfed := unfed_iff.mp old
      rw [place_gain old new]
      exact ⟨rfl, rfl, rfl, rfl, rfl, fun h => absurd h (not_or.mpr ⟨hv, hp⟩),
        fun _ _ => ⟨rfl, rfl, rfl, fun _ => rfl, fun nv np => absurd unfed (not_or.mpr ⟨nv, np⟩)⟩⟩
    | true =>
      obtain ⟨nv, np⟩ := fed_iff.mp old
      rw [place_fed old new]
      exact ⟨rfl, rfl, rfl, rfl, rfl, fun h => absurd h (not_or.mpr ⟨hv, hp⟩),
        fun _ _ => ⟨rfl, rfl, rfl, fun h => absurd h (not_or.mpr ⟨nv, np⟩), fun _ _ => rfl⟩⟩

end Sys2Proof.Machine
end

section
/-!
PROOFS. The channel (11.1): frames of the exchange and of the part, the octet path, and what is discarded
(FramesRoundTrip, PartFramesAreWellMade, OctetsMakeAMessage, FramesAreDiscarded).
-/
namespace Sys2Proof.Machine

open Sys2Proof.Safety

/-! ## The frame of a body -/

/-- What stands in a frame before its check octet. -/
def headOf (type tag : Nat) (body : List Nat) : List Nat := (body.length + 4) :: type :: tag :: body

theorem frameOf_eq (type tag : Nat) (body : List Nat) :
    frameOf type tag body = headOf type tag body ++ [checkOctet (headOf type tag body)] := rfl

theorem frameOf_length (type tag : Nat) (body : List Nat) : (frameOf type tag body).length = body.length + 4 := by
  simp [frameOf_eq, headOf]

theorem frameOf_sum (type tag : Nat) (body : List Nat) : (frameOf type tag body).sum % 256 = 0 := by
  rw [frameOf_eq]
  generalize headOf type tag body = head
  simp only [List.sum_append, List.sum_singleton, checkOctet]
  omega

theorem checkOctet_lt (octets : List Nat) : checkOctet octets < 256 := Nat.mod_lt _ (by decide)

theorem decodeFrame_frameOf (type tag : Nat) (body : List Nat) :
    decodeFrame (frameOf type tag body) = (decodeBody type tag body).getD (.badMessage tag) := by
  have rest : (body ++ [checkOctet (headOf type tag body)]).dropLast = body := List.dropLast_concat
  show (match decodeBody type tag (body ++ [checkOctet (headOf type tag body)]).dropLast with
    | some i => i
    | none => .badMessage tag) = _
  rw [rest]
  cases decodeBody type tag body <;> rfl

/-! ## Reading back what was written (R188) -/

theorem octets2_toOctets2 {v : Nat} : octets2 (v / 256) (v % 256) = v := by
  unfold octets2
  omega

theorem octets3_toOctets3 {v : Nat} : octets3 (v / 65536) (v / 256 % 256) (v % 256) = v := by
  unfold octets3
  omega

theorem flagOf_flagOctet (b : Bool) : flagOf (flagOctet b) = b := by cases b <;> rfl

theorem flagOctet_lt (b : Bool) : flagOctet b < 256 := by cases b <;> decide

/-- The address is of one of the five forms. -/
abbrev Formed (a : Address) : Prop := ∀ form, a ≠ .unknown form

theorem readAddress_writeAddress {a : Address} (h : Formed a) (rest : List Nat) :
    readAddress (writeAddress a ++ rest) = some (a, rest) := by
  cases a with
  | port v => rfl
  | shortKey v => exact congrArg (fun k => some (Address.shortKey k, rest)) octets2_toOctets2
  | longKey v => exact congrArg (fun k => some (Address.longKey k, rest)) octets3_toOctets3
  | cursor => rfl
  | handle v => rfl
  | unknown f => exact absurd rfl (h f)

theorem withAddress_writeAddress {a : Address} (h : Formed a) (rest : List Nat) (bare : Address → Instr)
    (full : Address → List Nat → Option Instr) : withAddress (writeAddress a ++ rest) bare full = full a rest := by
  unfold withAddress
  rw [readAddress_writeAddress h]
  cases a with
  | unknown f => exact absurd rfl (h f)
  | _ => rfl

/-- The same with nothing after the address. -/
theorem withAddress_bare {a : Address} (h : Formed a) (bare : Address → Instr)
    (full : Address → List Nat → Option Instr) : withAddress (writeAddress a) bare full = full a [] := by
  rw [← withAddress_writeAddress h [] bare full, List.append_nil]

theorem readLineWrite_write (w : LineWrite) : readLineWrite (writeLineWrite w) = some w := by
  show some _ = _
  simp only [octets3_toOctets3, flagOf_flagOctet]

theorem decodeBody_encodeBody {i : Instr} {type tag : Nat} {body : List Nat} (ha : ∀ form, addressOf i ≠ some (.unknown form))
    (h : encodeBody i = some (type, tag, body)) : decodeBody type tag body = some i := by
  have formed {a : Address} (hi : addressOf i = some a) : Formed a := fun f hf => ha f (hi.trans (congrArg some hf))
  cases i with
  | offer t a c =>
    cases c with
    | none => cases h; rw [decodeBody, withAddress_writeAddress (formed rfl)]; rfl
    | some v => cases h; rw [decodeBody, withAddress_writeAddress (formed rfl)]; rfl
  | grant t a => cases h; exact withAddress_bare (formed rfl) _ _
  | deny t a => cases h; exact withAddress_bare (formed rfl) _ _
  | answer t a => cases h; exact withAddress_bare (formed rfl) _ _
  | clear t a c => cases h; rw [decodeBody, withAddress_writeAddress (formed rfl)]
  | cleared t a => cases h; exact withAddress_bare (formed rfl) _ _
  | meter t a n => cases h; rw [decodeBody, withAddress_writeAddress (formed rfl)]
  | testConnect t a f =>
    cases h
    rw [decodeBody, withAddress_writeAddress (formed rfl)]
    exact congrArg (fun g => some (Instr.testConnect tag a g)) (flagOf_flagOctet f)
  | testRelease t a => cases h; exact withAddress_bare (formed rfl) _ _
  | writeLine t a w =>
    cases h
    rw [decodeBody, withAddress_writeAddress (formed rfl)]
    exact congrArg (Option.map _) (readLineWrite_write w)
  | readLine t a => cases h; exact withAddress_bare (formed rfl) _ _
  | ceaseLine t a => cases h; exact withAddress_bare (formed rfl) _ _
  | queryLine t a => cases h; exact withAddress_bare (formed rfl) _ _
  | setAdvance t w r d =>
    cases h
    show some (Instr.setAdvance tag (flagOf (flagOctet w)) (flagOf (flagOctet r)) d) = _
    rw [flagOf_flagOctet, flagOf_flagOctet]
  | setCadence t n ds => cases h; exact if_pos rfl
  | setParam t p v => cases h; exact congrArg (fun k => some (Instr.setParam tag p k)) octets2_toOctets2
  | readCounters t f => cases h; exact congrArg (fun g => some (Instr.readCounters tag g)) (flagOf_flagOctet f)
  | blockSlot | unblockSlot | clearRange | setCursor | setPrefix | readCadence | readParam | querySlots | resetCabinet =>
    cases h; rfl
  | _ => cases h

/-! ## The octets of a body -/

/-- Every number of the list fits one octet. -/
abbrev AllOctets (os : List Nat) : Prop := ∀ o ∈ os, o < 256

theorem allOctets_toOctets2 {v : Nat} (h : v < 65536) : AllOctets (toOctets2 v) := by
  simp only [AllOctets, toOctets2, List.mem_cons, List.not_mem_nil, or_false]
  rintro o (rfl | rfl) <;> omega

theorem allOctets_toOctets3 {v : Nat} (h : v < 16777216) : AllOctets (toOctets3 v) := by
  simp only [AllOctets, toOctets3, List.mem_cons, List.not_mem_nil, or_false]
  rintro o (rfl | rfl | rfl) <;> omega

theorem isOctet_iff {n : Nat} : isOctet n = true ↔ n < 256 := decide_eq_true_iff

theorem writeAddress_length (a : Address) : (writeAddress a).length ≤ 4 := by
  cases a <;> simp [writeAddress, toOctets2, toOctets3]

theorem allOctets_writeAddress {a : Address} (h : a.wf = true) : AllOctets (writeAddress a) := by
  cases a with
  | port v => exact List.forall_mem_cons.mpr ⟨by decide, by simpa using isOctet_iff.mp h⟩
  | shortKey v => exact List.forall_mem_cons.mpr ⟨by decide, allOctets_toOctets2 (by simpa [Address.wf, isOctets2] using h)⟩
  | longKey v => exact List.forall_mem_cons.mpr ⟨by decide, allOctets_toOctets3 (by simpa [Address.wf, isOctets3] using h)⟩
  | cursor => exact (by decide : AllOctets [3, 0])
  | handle v => exact List.forall_mem_cons.mpr ⟨by decide, by simpa using isOctet_iff.mp h⟩
  | unknown f =>
    obtain ⟨octet, _⟩ : f < 256 ∧ 5 ≤ f := by simpa [Address.wf, isOctet] using h
    exact List.forall_mem_singleton.mpr octet

theorem allOctets_writeLineWrite {w : LineWrite} (h : w.wf = true) : AllOctets (writeLineWrite w) := by
  simp only [LineWrite.wf, Bool.and_eq_true, isOctet_iff] at h
  obtain ⟨⟨⟨⟨status, key⟩, cls⟩, load⟩, cadence⟩ := h
  have keyed := allOctets_toOctets3 (v := w.key) (by simpa [isOctets3] using key)
  have flags := flagOctet_lt
  intro o ho
  simp only [writeLineWrite, List.mem_append, List.mem_cons, List.not_mem_nil, or_false] at ho
  rcases ho with (rfl | ho) | rfl | rfl | rfl | rfl | rfl | rfl | rfl
  · exact status
  · exact keyed o ho
  all_goals first | assumption | exact flags _

/-- A body of octets that leaves room for the length, the type, the tag and the check. -/
def Fits (body : List Nat) : Prop := AllOctets body ∧ body.length ≤ 60

theorem fits_of_short {os : List Nat} (h : AllOctets os) (hl : os.length ≤ 60) : Fits os := ⟨h, hl⟩

/-- An address, with up to 56 octets after it. -/
theorem fits_address {a : Address} (h : a.wf = true) {os : List Nat} (ho : AllOctets os) (hl : os.length ≤ 56) :
    Fits (writeAddress a ++ os) := by
  refine ⟨List.forall_mem_append.mpr ⟨allOctets_writeAddress h, ho⟩, ?_⟩
  have := writeAddress_length a
  simp only [List.length_append]
  omega

theorem fits_bare {a : Address} (h : a.wf = true) : Fits (writeAddress a) := by
  simpa using fits_address h (os := []) nofun (by decide)

theorem allOctets_one {n : Nat} (h : n < 256) : AllOctets [n] := List.forall_mem_singleton.mpr h

theorem allOctets_cons {n : Nat} {os : List Nat} (h : n < 256) (ho : AllOctets os) : AllOctets (n :: os) :=
  List.forall_mem_cons.mpr ⟨h, ho⟩

theorem writeLineWrite_length (w : LineWrite) : (writeLineWrite w).length = 11 := rfl

/-- A well-formed message has an octet for its type and its tag, and a body of octets that fits a frame. -/
theorem encodeBody_octets {i : Instr} {type tag : Nat} {body : List Nat} (hw : i.wf = true)
    (h : encodeBody i = some (type, tag, body)) : type < 256 ∧ tag < 256 ∧ Fits body := by
  cases i with
  | offer t a c =>
    simp only [Instr.wf, Bool.and_eq_true, isOctet_iff] at hw
    obtain ⟨⟨ht, ha⟩, hc⟩ := hw
    cases c with
    | none => cases h; exact ⟨by decide, ht, fits_address ha (allOctets_one (by decide)) (by decide)⟩
    | some c =>
      cases h
      exact ⟨by decide, ht, fits_address ha (allOctets_cons (by decide) (allOctets_one (isOctet_iff.mp hc))) (by simp)⟩
  | grant t a | deny t a | answer t a | cleared t a | testRelease t a | readLine t a | ceaseLine t a | queryLine t a =>
    simp only [Instr.wf, Bool.and_eq_true, isOctet_iff] at hw
    cases h
    exact ⟨by decide, hw.1, fits_bare hw.2⟩
  | clear t a n | meter t a n =>
    simp only [Instr.wf, Bool.and_eq_true, isOctet_iff] at hw
    obtain ⟨⟨ht, ha⟩, hn⟩ := hw
    cases h
    exact ⟨by decide, ht, fits_address ha (allOctets_one hn) (by simp)⟩
  | testConnect t a f =>
    simp only [Instr.wf, Bool.and_eq_true, isOctet_iff] at hw
    cases h
    exact ⟨by decide, hw.1, fits_address hw.2 (allOctets_one (flagOctet_lt f)) (by simp)⟩
  | writeLine t a w =>
    simp only [Instr.wf, Bool.and_eq_true, isOctet_iff] at hw
    obtain ⟨⟨ht, ha⟩, hr⟩ := hw
    cases h
    exact ⟨by decide, ht, fits_address ha (allOctets_writeLineWrite hr) (by rw [writeLineWrite_length]; decide)⟩
  | blockSlot t n | unblockSlot t n | setCursor t n | setPrefix t n | readCadence t n =>
    simp only [Instr.wf, Bool.and_eq_true, isOctet_iff] at hw
    cases h
    exact ⟨by decide, hw.1, fits_of_short (allOctets_one hw.2) (by simp)⟩
  | clearRange t f l =>
    simp only [Instr.wf, Bool.and_eq_true, isOctet_iff] at hw
    obtain ⟨⟨ht, hf⟩, hl⟩ := hw
    cases h
    exact ⟨by decide, ht, fits_of_short (allOctets_cons hf (allOctets_one hl)) (by simp)⟩
  | setAdvance t w r d =>
    simp only [Instr.wf, Bool.and_eq_true, isOctet_iff] at hw
    cases h
    exact ⟨by decide, hw.1,
      fits_of_short (allOctets_cons (flagOctet_lt w) (allOctets_cons (flagOctet_lt r) (allOctets_one hw.2))) (by simp)⟩
  | setCadence t n ds =>
    simp only [Instr.wf, Bool.and_eq_true, isOctet_iff, List.all_eq_true, decide_eq_true_eq] at hw
    obtain ⟨⟨⟨ht, hn⟩, hd⟩, hl⟩ := hw
    cases h
    exact ⟨by decide, ht, fits_of_short (allOctets_cons hn (allOctets_cons (by omega) hd)) (by simp; omega)⟩
  | setParam t p v =>
    simp only [Instr.wf, Bool.and_eq_true, isOctet_iff] at hw
    obtain ⟨⟨ht, hp⟩, hv⟩ := hw
    cases h
    exact ⟨by decide, ht,
      fits_of_short (allOctets_cons hp (allOctets_toOctets2 (by simpa [isOctets2] using hv))) (by simp [toOctets2])⟩
  | readCounters t f =>
    cases h
    exact ⟨by decide, isOctet_iff.mp hw, fits_of_short (allOctets_one (flagOctet_lt f)) (by simp)⟩
  | readParam t | querySlots t | resetCabinet t =>
    cases h
    exact ⟨by decide, isOctet_iff.mp hw, fits_of_short nofun (by decide)⟩
  | _ => cases h

/-- Settles O4: the body is read back field by field, and the frame adds its length and its check. -/
theorem framesRoundTrip : Obligations.FramesRoundTrip := by
  intro i frame hw ha h
  obtain ⟨⟨type, tag, body⟩, encoded, rfl⟩ : ∃ m, encodeBody i = some m ∧ frameOf m.1 m.2.1 m.2.2 = frame := by
    unfold encodeFrame at h
    split at h
    · next m => exact ⟨_, m, Option.some.inj h⟩
    · cases h
  obtain ⟨typed, tagged, octets, short⟩ := encodeBody_octets hw encoded
  dsimp only
  refine ⟨?_, ?_, ?_, ?_, frameOf_sum type tag body, ?_⟩
  · rw [decodeFrame_frameOf, decodeBody_encodeBody ha encoded]
    rfl
  · rw [frameOf_length]; omega
  · rw [frameOf_length]; exact Nat.add_le_add_right short 4
  · rw [frameOf_length]; rfl
  · rw [frameOf_eq]
    refine List.forall_mem_append.mpr ⟨?_, allOctets_one (checkOctet_lt _)⟩
    exact allOctets_cons (by omega) (allOctets_cons typed (allOctets_cons tagged octets))

/-- Settles O5: a frame is made of its type, its tag and its body, and the tag is a field of the message. -/
theorem partFramesAreWellMade : Obligations.PartFramesAreWellMade := by
  refine ⟨fun m => ⟨frameOf_sum _ _ _, ?_, rfl, rfl⟩, ?_⟩
  · rw [show m.frame = frameOf m.parts.1 m.parts.2.1 m.parts.2.2 from rfl, frameOf_length]
    rfl
  · and_intros <;> intros <;> rfl

/-! ## The octet path (R189, R190) -/

theorem canTake_iff {s : State} : s.canTake = true ↔ Listening s := by simp [State.canTake]

theorem deaf_iff {s : State} : s.canTake = false ↔ ¬ Listening s := by rw [← canTake_iff, Bool.not_eq_true]

theorem exec_octetTaken (o : Nat) (s : State) : exec (.octetTaken o) s = execOctetTaken o s := rfl

/-- An octet before any other is a length. -/
theorem octet_opens {s : State} (hl : Listening s) (he : s.assembly = []) (o : Nat) :
    exec (.octetTaken o) s = if 4 ≤ o ∧ o ≤ 64 then .next { s with assembly := [o] } else .next s.discardFrame := by
  rw [exec_octetTaken]
  unfold execOctetTaken
  rw [if_pos (canTake_iff.mpr hl), he]

/-- An octet after others joins the frame, or completes it. -/
theorem octet_follows {s : State} (hl : Listening s) {n : Nat} (hh : s.assembly.head? = some n) (o : Nat) :
    exec (.octetTaken o) s =
      if s.assembly.length + 1 < n then .next { s with assembly := s.assembly ++ [o] }
      else s.completeFrame (s.assembly ++ [o]) := by
  rw [exec_octetTaken]
  unfold execOctetTaken
  rw [if_pos (canTake_iff.mpr hl)]
  split
  · next he => rw [he] at hh; cases hh
  · next length more he =>
    rw [he] at hh ⊢
    cases hh
    dsimp only
    rw [List.length_append, List.length_singleton]

/-- Settles O6: the octets gather up to the length that the first gives, and the last one completes the frame. -/
theorem octetsMakeAMessage : Obligations.OctetsMakeAMessage := by
  intro s frame hl four short head sum
  have taken (k : Nat) (hk : 0 < k) : (frame.take k).head? = some frame.length := by
    rw [List.head?_take, if_neg (by omega), head]
  refine ⟨fun k hk => ?_, fun i last hlast hi hm => ?_⟩
  · rw [List.take_succ_eq_append_getElem (by omega)]
    cases k with
    | zero =>
      have first : frame[0] = frame.length := by
        rw [List.head?_eq_getElem?, List.getElem?_eq_getElem (by omega)] at head
        exact Option.some.inj head
      rw [octet_opens (s := { s with assembly := frame.take 0 }) hl rfl, if_pos (by rw [first]; exact ⟨four, short⟩)]
      rfl
    | succ k =>
      rw [octet_follows (s := { s with assembly := frame.take (k + 1) }) hl (taken _ (by omega)), if_pos (by rw [List.length_take]; omega)]
  · have whole : frame.dropLast ++ [last] = frame := by
      obtain ⟨front, rfl⟩ := List.getLast?_eq_some_iff.mp hlast
      rw [List.dropLast_concat]
    have gathered : frame.dropLast.length + 1 = frame.length := by rw [List.length_dropLast]; omega
    have opening : frame.dropLast.head? = some frame.length := by rw [List.dropLast_eq_take]; exact taken _ (by omega)
    rw [octet_follows (s := { s with assembly := frame.dropLast }) hl opening, if_neg (by dsimp only; omega), whole]
    unfold State.completeFrame
    rw [if_pos sum, hi, runMessage_eq, if_pos hm]

/-- Outside the times at which octets are taken, a message leaves the state as it is (log entry 6). -/
theorem message_deaf {s : State} (hd : ¬ Listening s) {i : Instr} (hi : isMessage i = true) : exec i s = .next s := by
  rcases message_taken hi with ⟨tag, rfl⟩ | ⟨f, taken⟩
  · show Host.Outcome.next (if s.canTake then _ else s) = _
    rw [if_neg (by rw [deaf_iff.mpr hd]; decide)]
  · rw [taken, takeMessage_deaf hd]

/-- Settles O7: what is discarded is counted while octets are taken, and changes nothing at other times. -/
theorem framesAreDiscarded : Obligations.FramesAreDiscarded := by
  refine ⟨fun s hl => ⟨?_, fun o ho empty => ?_, fun o head sum => ?_, fun tag hq => ?_⟩, fun s hd => ⟨fun i hi => message_deaf hd hi,
    fun o => ?_, ?_⟩⟩
  · show Host.Outcome.next (if s.canTake then s.discardFrame else s) = _
    rw [if_pos (canTake_iff.mpr hl)]
    rfl
  · rw [octet_opens hl empty, if_neg (by omega)]
    unfold State.discardFrame
    rw [← empty]
    rfl
  · rw [octet_follows hl head, if_neg (by omega)]
    exact if_neg (by simpa using sum)
  · show execBadMessage tag s = _
    rw [execBadMessage, takeMessage_listening hl, ack_taken hl hq]
  · rw [exec_octetTaken]
    exact if_neg (by rw [deaf_iff.mpr hd]; decide)
  · show Host.Outcome.next (if s.canTake then s.discardFrame else s) = _
    rw [if_neg (by rw [deaf_iff.mpr hd]; decide)]

end Sys2Proof.Machine
end

section
/-!
PROOFS. The ringing capacity from the held readings, the resolution of addresses, and READ_LINE of a record that reads
(CapacityIsDerated, AddressesResolve, ReadLineReplies).
-/
namespace Sys2Proof.Machine

open Sys2Proof.Safety

variable {s : State}

/-! ## Capacity (R120, R121) -/

/-- The margin of a battery reading over B_cut, clamped to 0 to W. -/
def Params.margin (q : Params) (b : Nat) : Nat := min (b - q.bCut) (q.bFull - q.bCut)

theorem margin_eq {q : Params} (h : q.bCut < q.bFull) (b : Nat) :
    (if b ≤ q.bCut then 0 else if q.bFull ≤ b then q.bFull - q.bCut else b - q.bCut) = q.margin b := by
  unfold Params.margin
  split
  · omega
  · split <;> omega

theorem batteryDerated_eq (q : Params) (b : Nat) : q.batteryDerated b = q.g * q.margin b / (q.bFull - q.bCut) := rfl

theorem batteryDerated_le (q : Params) (b : Nat) : q.batteryDerated b ≤ q.g := by
  rw [batteryDerated_eq]
  refine Nat.div_le_of_le_mul ?_
  rw [Nat.mul_comm]
  exact Nat.mul_le_mul_right _ (Nat.min_le_right _ _)

theorem bandNow_untaken (h : s.temperatureTaken = none) : s.bandNow = .cool := by
  unfold State.bandNow
  rw [h]

theorem bandNow_taken {t : Int} (h : s.temperatureTaken = some t) :
    s.bandNow = if t < (s.params.tHot : Int) then .cool else if t < (s.params.tTrip : Int) then .hot else .trip := by
  unfold State.bandNow
  rw [h]

theorem capacity_cool {b : Nat} (hb : s.batteryTaken = some b) (h : s.bandNow = .cool) :
    s.capacity = s.params.batteryDerated b := by
  unfold State.capacity
  rw [hb, h]

theorem capacity_hot {b : Nat} {t : Int} (hb : s.batteryTaken = some b) (ht : s.temperatureTaken = some t)
    (h : s.bandNow = .hot) :
    s.capacity = s.params.batteryDerated b * ((s.params.tTrip : Int) - t).toNat / (s.params.tTrip - s.params.tHot) := by
  unfold State.capacity
  rw [hb, h, ht]
  rfl

theorem capacity_trip (h : s.bandNow = .trip) : s.capacity = 0 := by
  unfold State.capacity
  rw [h]
  split <;> rfl

/-- Between T_hot and T_trip the share of A_b that is left is at most all of it. -/
theorem hotShare_le {t : Int} (hot : (s.params.tHot : Int) ≤ t) (a : Nat) :
    a * ((s.params.tTrip : Int) - t).toNat / (s.params.tTrip - s.params.tHot) ≤ a := by
  refine Nat.div_le_of_le_mul ?_
  rw [Nat.mul_comm]
  exact Nat.mul_le_mul_right _ (by omega)

theorem capacity_le {b : Nat} (hb : s.batteryTaken = some b) : s.capacity ≤ s.params.g := by
  have derated := batteryDerated_le s.params b
  cases ht : s.temperatureTaken with
  | none => exact Nat.le_trans (Nat.le_of_eq (capacity_cool hb (bandNow_untaken ht))) derated
  | some t =>
    have band := bandNow_taken ht
    split at band
    · exact Nat.le_trans (Nat.le_of_eq (capacity_cool hb band)) derated
    · next hot =>
      split at band
      · exact Nat.le_trans (Nat.le_of_eq (capacity_hot hb ht band)) (Nat.le_trans (hotShare_le (by omega) _) derated)
      · exact Nat.le_trans (Nat.le_of_eq (capacity_trip band)) (Nat.zero_le _)

/-- Settles O35: the band decides what becomes of the battery-derated capacity. -/
theorem capacityIsDerated : Obligations.CapacityIsDerated := by
  rintro s ⟨cut, _, _⟩
  refine ⟨fun on none => ?_, fun b hb => ?_⟩
  · unfold State.capacity State.batteryTaken
    rw [if_pos on, none]
  have taken : s.batteryTaken = some b := by
    unfold State.batteryTaken
    rcases hb with ⟨on, held⟩ | ⟨off, rfl⟩
    · rw [if_pos on, held]
    · rw [if_neg (by simp [off])]
  dsimp only
  rw [margin_eq cut, ← batteryDerated_eq]
  refine ⟨fun h => ?_, fun t on held => ?_, capacity_le taken⟩
  · have untaken : s.temperatureTaken = none := by
      unfold State.temperatureTaken
      rcases h with h | h <;> simp [h]
    exact ⟨bandNow_untaken untaken, capacity_cool taken (bandNow_untaken untaken)⟩
  · have heat : s.temperatureTaken = some t := by
      unfold State.temperatureTaken
      rw [if_pos on, held]
    have band := bandNow_taken heat
    refine ⟨fun cool => ?_, fun hot below => ?_, fun trip => ?_⟩
    · rw [if_pos cool] at band
      exact ⟨band, capacity_cool taken band⟩
    · rw [if_neg (by omega), if_pos below] at band
      refine ⟨band, ?_⟩
      rw [capacity_hot taken heat band]
      push_cast
      rw [Int.toNat_of_nonneg (by omega)]
    · rw [if_neg (by omega), if_neg (by omega)] at band
      exact ⟨band, capacity_trip band⟩

/-! ## Addresses (R6, R7) -/

theorem portOfKey_found {k : Nat} {p : PortNo} (h : ∀ q, s.indexKey q = some k ↔ q = p) : s.portOfKey k = some p := by
  have found : (s.portOfKey k).isSome = true := by
    unfold State.portOfKey
    rw [List.find?_isSome]
    exact ⟨p, List.mem_finRange p, by simpa using (h p).mpr rfl⟩
  obtain ⟨q, hq⟩ := Option.isSome_iff_exists.mp found
  have key := List.find?_some hq
  rw [hq, (h q).mp (by simpa using key)]

theorem portOfKey_absent {k : Nat} (h : ∀ q, s.indexKey q ≠ some k) : s.portOfKey k = none :=
  List.find?_eq_none.mpr fun q _ => by simpa using h q

/-- No form but CURSOR is treated in a way of its own by the messages that do not take it. -/
theorem resolveNoCursor_fails {a : Address} {code : Code} (h : s.resolve a = .fails code) :
    s.resolveNoCursor a = .fails code := by
  cases a with
  | cursor => cases h
  | _ => exact h

section
variable (hl : Listening s) (hq : Quiet s) (tag : Nat)
include hl hq

theorem readLine_fails {a : Address} {code : Code} (h : s.resolve a = .fails code) :
    exec (.readLine tag a) s = .next (answering s [.ack tag code]) := by
  show execReadLine tag a s = _
  rw [execReadLine, takeMessage_listening hl]
  simp only [taken_resolve, h, ack_taken hl hq]

theorem ceaseLine_fails (hi : s.engine = .idle) {a : Address} {code : Code} (h : s.resolve a = .fails code) :
    exec (.ceaseLine tag a) s = .next (answering s [.ack tag code]) := by
  show execCeaseLine tag a s = _
  rw [execCeaseLine, takeMessage_provision_idle hl hi]
  simp only [taken_resolve, h, ack_taken hl hq]

theorem offer_fails {a : Address} {code : Code} (h : s.resolveNoCursor a = .fails code) (c : Option Nat) :
    exec (.offer tag a c) s = .next (answering s [.refused tag code]) := by
  show execOffer tag a c s = _
  rw [execOffer, takeMessage_listening hl]
  simp only [taken_resolveNoCursor, h, State.refuseOffer, reply_taken hl hq]

theorem queryLine_fails {a : Address} {code : Code} (h : s.resolveNoCursor a = .fails code) :
    exec (.queryLine tag a) s = .next (answering s [.ack tag code]) := by
  show execQueryLine tag a s = _
  rw [execQueryLine, takeMessage_listening hl]
  simp only [taken_resolveNoCursor, h, ack_taken hl hq]

theorem testConnect_fails {a : Address} {code : Code} (h : s.resolveNoCursor a = .fails code) (f : Bool) :
    exec (.testConnect tag a f) s = .next (answering s [.ack tag code]) := by
  show execTestConnect tag a f s = _
  rw [execTestConnect, takeMessage_listening hl]
  simp only [taken_resolveNoCursor, h, ack_taken hl hq]

theorem testRelease_fails {a : Address} {code : Code} (h : s.resolveNoCursor a = .fails code) :
    exec (.testRelease tag a) s = .next (answering s [.ack tag code]) := by
  show execTestRelease tag a s = _
  rw [execTestRelease, takeMessage_listening hl]
  simp only [taken_resolveNoCursor, h, ack_taken hl hq]

theorem writeLine_fails (hi : s.engine = .idle) {a : Address} {code : Code} (h : s.resolveForWrite a = .fails code)
    (w : LineWrite) : exec (.writeLine tag a w) s = .next (answering s [.ack tag code]) := by
  show execWriteLine tag a w s = _
  rw [execWriteLine, takeMessage_provision_idle hl hi]
  simp only [taken_resolveForWrite, h, ack_taken hl hq]

end

theorem resolve_port (v : Nat) : s.resolve (.port v) = if h : v < 48 then .port ⟨v, h⟩ else .fails .unknownLine := by
  show Resolved.ofOption (portOfNumber v) = _
  unfold portOfNumber
  split <;> rfl

/-- Settles O8: how each form resolves, and what each message answers to one that does not. -/
theorem addressesResolve : Obligations.AddressesResolve := by
  refine ⟨fun s => ⟨resolve_port, fun v p h => congrArg Resolved.ofOption (portOfKey_found h), fun v h => congrArg Resolved.ofOption (portOfKey_absent h),
    fun k p h => congrArg Resolved.ofOption (portOfKey_found h), fun k h => congrArg Resolved.ofOption (portOfKey_absent h), rfl⟩,
    fun s tag a hl hq => ⟨fun code h => ?_, ?_, ?_, ?_, ?_⟩⟩
  · have bare := resolveNoCursor_fails h
    exact ⟨readLine_fails hl hq tag h, fun hi => ceaseLine_fails hl hq tag hi h, fun c => offer_fails hl hq tag bare c,
      queryLine_fails hl hq tag bare, fun f => testConnect_fails hl hq tag bare f, testRelease_fails hl hq tag bare⟩
  · rintro v (rfl | rfl) <;> rfl
  · rintro rfl
    exact ⟨fun c => offer_fails hl hq tag rfl c, queryLine_fails hl hq tag rfl, fun f => testConnect_fails hl hq tag rfl f,
      testRelease_fails hl hq tag rfl⟩
  · rintro v w hi (rfl | rfl | rfl | rfl) <;> exact writeLine_fails hl hq tag hi rfl w
  · rintro v w hi rfl beyond
    have unknown : s.resolveForWrite (.port v) = .fails .unknownLine :=
      (resolve_port (s := s) v).trans (dif_neg (by omega))
    exact writeLine_fails hl hq tag hi unknown w

/-! ## READ_LINE (R8, R200) -/

theorem isCursorForm_iff {a : Address} : isCursorForm a = true ↔ a = .cursor := by cases a <;> simp [isCursorForm]

/-- What becomes of the cursor after a request that succeeded (R200). -/
theorem moveCursor_eq (s : State) (a : Address) (on : Bool) :
    s.moveCursor a on =
      { s with cursor := if a = .cursor ∧ on = true then cursorStep s.advance.direction s.cursor else s.cursor } := by
  unfold State.moveCursor
  simp only [Bool.and_eq_true, isCursorForm_iff]
  split <;> rfl

theorem not_placementFault {p : PortNo} (h : Reads s p) : ((s.line p).damaged && !(s.line p).withdrawn) = false := by
  rcases h with h | h <;> simp [h]

theorem exec_readLine (tag : Nat) (a : Address) (s : State) : exec (.readLine tag a) s = execReadLine tag a s := rfl

/-- The reply alone already leaves the way out at rest. -/
theorem reply_taken_answering (hl : Listening s) (hq : Quiet s) (m : Message) : s.taken.reply m = answering s [m] := by
  rw [← reply_taken hl hq]
  exact (release_quiet ⟨rfl, rfl⟩).symm

/-- A way out at rest has nothing to let go of. -/
theorem release_eq {t u : State} (h : t = u) (hq : Quiet u) : t.release = u := h ▸ release_quiet (h ▸ hq)

/-- Settles O12: LINE_DATA leaves, and then the cursor moves. -/
theorem readLineReplies : Obligations.ReadLineReplies := by
  intro s tag a p hl hq ha hr
  have shown : s.taken.lineData tag p = s.lineData tag p := rfl
  rw [exec_readLine, execReadLine, takeMessage_listening hl]
  simp only [taken_resolve, ha, taken_line, not_placementFault hr, Bool.false_eq_true, if_false, shown,
    reply_taken_answering hl hq, moveCursor_eq]
  rw [← reportedHook_eq]
  exact congrArg Host.Outcome.next (release_eq rfl hq)

end Sys2Proof.Machine
end

section
/-!
PROOFS. The clock (ClockTakesWhatIsDue): when each event of the part's own is due, and one millisecond.
-/
namespace Sys2Proof.Machine

open Sys2Proof.Safety

variable {s : State} {c : Instr}

/-! ## What is due -/

/-- Each event of the part's own, with what has run out for it (log entry 1). -/
inductive Due (s : State) : Instr → Prop
  | offHook {p : PortNo} {n : Nat} (h : (s.port p).classifier = .closure n) (ms : s.tSeize p ≤ n) :
      Due s (.offHookDeclared p)
  | onHook {p : PortNo} {n : Nat} (h : (s.port p).classifier = .breaking n) (ms : 900 ≤ n) : Due s (.onHookDeclared p)
  | digitEnd {p : PortNo} {n : Nat} (h : (s.port p).classifier = .make) (make : (s.port p).makeTimer = some n)
      (ms : 250 ≤ n) : Due s (.digitEnd p)
  | pulseEnd {p : PortNo} (h : (s.port p).injector = .pulse 0) : Due s (.pulseEnd p)
  | gapEnd {p : PortNo} (h : (s.port p).injector = .gap 0) : Due s (.gapEnd p)
  | tAccept {e : EntryNo} {b : Binding} (h : (s.entry e).binding = some b) (phase : b.phase = .seizing)
      (left : b.tAccept = some 0) : Due s (.tAcceptExpiry b.handle)
  | tRingwait {e : EntryNo} {b : Binding} (h : (s.entry e).binding = some b) (phase : b.phase = .ringWait)
      (left : b.tRingwait = some 0) : Due s (.tRingwaitExpiry b.handle)
  | tRingmax {e : EntryNo} {b : Binding} (h : (s.entry e).binding = some b)
      (phase : b.phase = .ringWait ∨ b.phase = .ringing) (left : b.tRingmax = some 0) : Due s (.tRingmaxExpiry b.handle)
  | tRelease {e : EntryNo} {b : Binding} (h : (s.entry e).binding = some b) (phase : b.phase = .clearing)
      (left : b.tRelease = some 0) : Due s (.tReleaseExpiry b.handle)
  | segmentEnd {r : RingEntry} (h : r ∈ s.ringList) (left : r.left = 0) : Due s (.segmentEnd r.handle)
  | tWait {w : Waiting} (h : w ∈ s.owq) (left : w.left = 0) : Due s (.tWaitExpiry w.port)
  | tTest {h : TestHold} (bus : s.bus = some h) (left : h.left = 0) : Due s .tTestExpiry
  | rangeStep {w : RangeWalk} (h : s.engine = .walk w) (left : w.left = 0) : Due s .rangeStep
  | sweepStep (h : s.sweepLeft = 0) : Due s .sweepStep
  | lossHold (h : s.lossHold = some 0) : Due s .lossHoldExpiry
  | alignHold (h : s.alignHold = some 0) : Due s .alignmentHoldExpiry

theorem ranOut_iff {left : Option Nat} : ranOut left = true ↔ left = some 0 := decide_eq_true_iff

theorem mem_singleton_if {P : Prop} [Decidable P] {d : Instr} : c ∈ (if P then [d] else []) ↔ P ∧ c = d := by
  split <;> simp [*]

theorem mem_lineDue {p : PortNo} (h : c ∈ s.lineDue p) : Due s c := by
  unfold State.lineDue at h
  split at h
  · next hc =>
    obtain ⟨ms, rfl⟩ := mem_singleton_if.mp h
    exact .offHook hc ms
  · next hc =>
    obtain ⟨ms, rfl⟩ := mem_singleton_if.mp h
    exact .onHook hc ms
  · next hc =>
    split at h
    · next make =>
      obtain ⟨ms, rfl⟩ := mem_singleton_if.mp h
      exact .digitEnd hc make ms
    · cases h
  · cases h

theorem mem_injectorDue {p : PortNo} (h : c ∈ s.injectorDue p) : Due s c := by
  unfold State.injectorDue at h
  split at h
  · next hi => exact List.mem_singleton.mp h ▸ .pulseEnd hi
  · next hi => exact List.mem_singleton.mp h ▸ .gapEnd hi
  · cases h

theorem mem_bindingDue_iff {b : Binding} : c ∈ b.due ↔
    ((b.phase = .seizing ∧ b.tAccept = some 0) ∧ c = .tAcceptExpiry b.handle) ∨
    ((b.phase = .ringWait ∧ b.tRingwait = some 0) ∧ c = .tRingwaitExpiry b.handle) ∨
    (((b.phase = .ringWait ∨ b.phase = .ringing) ∧ b.tRingmax = some 0) ∧ c = .tRingmaxExpiry b.handle) ∨
    ((b.phase = .clearing ∧ b.tRelease = some 0) ∧ c = .tReleaseExpiry b.handle) := by
  have running {P : Prop} {left : Option Nat} : (P ∧ left.isSome = true) ∧ left = some 0 ↔ P ∧ left = some 0 :=
    ⟨fun ⟨⟨hp, _⟩, hl⟩ => ⟨hp, hl⟩, fun ⟨hp, hl⟩ => ⟨⟨hp, by rw [hl]; rfl⟩, hl⟩⟩
  simp only [Binding.due, Binding.acceptRuns, Binding.ringwaitRuns, Binding.ringmaxRuns, Binding.releaseRuns,
    List.mem_append, mem_singleton_if, Bool.and_eq_true, Bool.or_eq_true, decide_eq_true_eq, ranOut_iff, running, or_assoc]

theorem mem_bindingsDue (h : c ∈ s.bindingsDue) : Due s c := by
  obtain ⟨e, _, h⟩ := List.mem_flatMap.mp h
  split at h
  · next b hb =>
    rcases mem_bindingDue_iff.mp h with ⟨⟨phase, left⟩, rfl⟩ | ⟨⟨phase, left⟩, rfl⟩ | ⟨⟨phase, left⟩, rfl⟩ |
      ⟨⟨phase, left⟩, rfl⟩
    · exact .tAccept hb phase left
    · exact .tRingwait hb phase left
    · exact .tRingmax hb phase left
    · exact .tRelease hb phase left
  · cases h

/-- What may be due outside a store clear. -/
def State.ordinaryDue (s : State) : List Instr :=
  allPorts.flatMap (fun p => s.lineDue p ++ s.injectorDue p) ++ s.bindingsDue ++
    ((s.ringList.filter fun r => decide (r.left = 0)).map fun r => .segmentEnd r.handle) ++
    ((s.owq.filter fun w => decide (w.left = 0)).map fun w => .tWaitExpiry w.port) ++
    s.busDue ++ s.walkDue ++ (if s.sweepLeft = 0 then [.sweepStep] else []) ++
    (if ranOut s.lossHold then [.lossHoldExpiry] else []) ++
    (if ranOut s.alignHold then [.alignmentHoldExpiry] else [])

theorem due_ordinary (h : s.storeClearing = false) : s.due = s.ordinaryDue := by
  unfold State.due
  split
  · next he =>
    unfold State.storeClearing at h
    rw [he] at h
    cases h
  · rfl

theorem due_storeClear {left : Nat} (h : s.engine = .storeClear left) :
    s.due = if left = 0 then [.storeClearEnd ((List.range 78).filter (Config.storeTestFails s.draws))] else [] := by
  unfold State.due
  rw [h]

theorem due_of_mem (h : c ∈ s.ordinaryDue) : Due s c := by
  simp only [State.ordinaryDue, List.mem_append, mem_singleton_if, ranOut_iff, or_assoc] at h
  rcases h with h | h | h | h | h | h | h | h | h
  · obtain ⟨p, _, h⟩ := List.mem_flatMap.mp h
    exact (List.mem_append.mp h).elim mem_lineDue mem_injectorDue
  · exact mem_bindingsDue h
  · obtain ⟨r, hr, rfl⟩ := List.mem_map.mp h
    obtain ⟨hr, left⟩ := List.mem_filter.mp hr
    exact .segmentEnd hr (of_decide_eq_true left)
  · obtain ⟨w, hw, rfl⟩ := List.mem_map.mp h
    obtain ⟨hw, left⟩ := List.mem_filter.mp hw
    exact .tWait hw (of_decide_eq_true left)
  · unfold State.busDue at h
    split at h
    · next hb =>
      obtain ⟨left, rfl⟩ := mem_singleton_if.mp h
      exact .tTest hb left
    · cases h
  · unfold State.walkDue at h
    split at h
    · next hw =>
      obtain ⟨left, rfl⟩ := mem_singleton_if.mp h
      exact .rangeStep hw left
    · cases h
  · exact h.2 ▸ .sweepStep h.1
  · exact h.2 ▸ .lossHold h.1
  · exact h.2 ▸ .alignHold h.1

theorem Due.mem (h : Due s c) : c ∈ s.ordinaryDue := by
  have ports (p : PortNo) {d : Instr} (hp : d ∈ s.lineDue p ++ s.injectorDue p) :
      d ∈ allPorts.flatMap fun p => s.lineDue p ++ s.injectorDue p := List.mem_flatMap.mpr ⟨p, List.mem_finRange p, hp⟩
  have bindings {e : EntryNo} {b : Binding} {d : Instr} (hb : (s.entry e).binding = some b) (hd : d ∈ b.due) :
      d ∈ s.bindingsDue := List.mem_flatMap.mpr ⟨e, List.mem_finRange e, by simpa only [hb] using hd⟩
  simp only [State.ordinaryDue, List.mem_append, mem_singleton_if, ranOut_iff, or_assoc]
  cases h with
  | @offHook p n h ms => exact .inl (ports p (List.mem_append_left _ (by simp [State.lineDue, h, ms])))
  | @onHook p n h ms => exact .inl (ports p (List.mem_append_left _ (by simp [State.lineDue, h, onHookBreak, ms])))
  | @digitEnd p n h make ms => exact .inl (ports p (List.mem_append_left _ (by simp [State.lineDue, h, make, digitMake, ms])))
  | @pulseEnd p h => exact .inl (ports p (List.mem_append_right _ (by simp [State.injectorDue, h])))
  | @gapEnd p h => exact .inl (ports p (List.mem_append_right _ (by simp [State.injectorDue, h])))
  | tAccept h phase left => exact .inr (.inl (bindings h (mem_bindingDue_iff.mpr (.inl ⟨⟨phase, left⟩, rfl⟩))))
  | tRingwait h phase left =>
    exact .inr (.inl (bindings h (mem_bindingDue_iff.mpr (.inr (.inl ⟨⟨phase, left⟩, rfl⟩)))))
  | tRingmax h phase left =>
    exact .inr (.inl (bindings h (mem_bindingDue_iff.mpr (.inr (.inr (.inl ⟨⟨phase, left⟩, rfl⟩))))))
  | tRelease h phase left =>
    exact .inr (.inl (bindings h (mem_bindingDue_iff.mpr (.inr (.inr (.inr ⟨⟨phase, left⟩, rfl⟩))))))
  | @segmentEnd r h left =>
    exact .inr (.inr (.inl (List.mem_map.mpr ⟨r, List.mem_filter.mpr ⟨h, decide_eq_true left⟩, rfl⟩)))
  | @tWait w h left =>
    exact .inr (.inr (.inr (.inl (List.mem_map.mpr ⟨w, List.mem_filter.mpr ⟨h, decide_eq_true left⟩, rfl⟩))))
  | tTest bus left => simp [State.busDue, bus, left]
  | rangeStep h left => simp [State.walkDue, h, left]
  | sweepStep h => simp [h]
  | lossHold h => simp [h]
  | alignHold h => simp [h]

/-- What is due has run out; the end of a store clear has run out with it. -/
theorem due_cases (h : c ∈ s.due) : Due s c ∨ ∃ failed, c = .storeClearEnd failed ∧ s.engine = .storeClear 0 := by
  cases hs : s.storeClearing with
  | false =>
    rw [due_ordinary hs] at h
    exact .inl (due_of_mem h)
  | true =>
    obtain ⟨left, he⟩ : ∃ left, s.engine = .storeClear left := by
      unfold State.storeClearing at hs
      split at hs
      · exact ⟨_, ‹_›⟩
      · cases hs
    rw [due_storeClear he] at h
    obtain ⟨rfl, rfl⟩ := mem_singleton_if.mp h
    exact .inr ⟨_, rfl, he⟩

theorem tSeize_eq (s : State) (p : PortNo) : s.tSeize p =
    if s.call p = none ∧ s.sense.power ≠ .normal ∧ (s.port p).sup = .idle then 200 else 30 := by
  unfold State.tSeize
  cases hc : s.call p with
  | some c => simp [seizeShort]
  | none =>
    by_cases hn : s.sense.power = .normal
    · simp [hn, seizeShort]
    · by_cases hi : (s.port p).sup = .idle <;> simp [hn, hi, seizeShort, seizeLong]

theorem dueNext_none (h : s.dueNext = none) : s.due = [] := by
  unfold State.dueNext at h
  split at h
  · assumption
  all_goals cases h

theorem dueNext_some (h : s.dueNext = some c) : c ∈ s.due := by
  unfold State.dueNext at h
  split at h
  · cases h
  · next d hd => rw [hd]; exact List.mem_singleton.mpr (Option.some.inj h).symm
  · next d more _ hd =>
    rw [hd]
    have within : Config.duePick s.draws % (more.length + 1) < (d :: more).length := Nat.mod_lt _ (Nat.succ_pos _)
    rw [List.getElem?_eq_getElem within] at h
    exact Option.some.inj h ▸ List.getElem_mem within

/-! ## One millisecond -/

theorem Port.tick_eq (q : Port) : q.tick =
    { q with
      classifier := match q.classifier with
        | .closure n => .closure (n + 1)
        | .breaking n => .breaking (n + 1)
        | x => x
      makeTimer := match q.classifier with
        | .make => q.makeTimer.map (· + 1)
        | _ => q.makeTimer
      injector := match q.injector with
        | .pulse n => .pulse (n - 1)
        | .gap n => .gap (n - 1)
        | .idle => .idle } := by
  obtain ⟨hook, cl, pu, mk, sup, pp, tl, inj, lc⟩ := q
  cases cl <;> cases inj <;> rfl

theorem Engine.tick_eq {g : Engine} (h : ∀ left, g ≠ .storeClear left) :
    g.tick = match (generalizing := false) g with
      | .walk w => .walk { w with left := w.left - 1 }
      | x => x := by
  cases g with
  | storeClear left => exact absurd rfl (h left)
  | _ => rfl

/-- Settles O2: the events are read off the list of what is due, one kind from the other, and a tick is written out field
by field. -/
theorem clockTakesWhatIsDue : Obligations.ClockTakesWhatIsDue := by
  refine ⟨fun s idle => ⟨fun none => ⟨dueNext_none none, ?_⟩, fun c next => ?_⟩, fun s ordinary => ?_, fun s h => ?_,
    fun s ordinary => ?_, fun s k h => ?_⟩
  · unfold step
    rw [idle, none]
  · have due := dueNext_some next
    refine ⟨due, ?_, ?_⟩
    · unfold step
      rw [idle, next]
    simp only [← tSeize_eq]
    rcases due_cases due with d | ⟨failed, rfl, he⟩
    · refine ⟨fun p h => ?_, fun p h => ?_, fun p h => ?_, fun p h => ?_, fun p h => ?_, fun k h => ?_, fun k h => ?_,
        fun k h => ?_, fun k h => ?_, fun k h => ?_, fun p h => ?_, fun h => ?_, fun h => ?_, fun h => ?_, fun h => ?_,
        fun h => ?_, fun failed h => ?_⟩ <;> rw [h] at d
      · cases d with | offHook h ms => exact ⟨_, h, ms⟩
      · cases d with | onHook h ms => exact ⟨_, h, ms⟩
      · cases d with | digitEnd h make ms => exact ⟨h, _, make, ms⟩
      · cases d with | pulseEnd h => exact h
      · cases d with | gapEnd h => exact h
      · cases d with | tAccept hb phase left => exact ⟨_, _, hb, rfl, phase, left⟩
      · cases d with | tRingwait hb phase left => exact ⟨_, _, hb, rfl, phase, left⟩
      · cases d with | tRingmax hb phase left => exact ⟨_, _, hb, rfl, phase, left⟩
      · cases d with | tRelease hb phase left => exact ⟨_, _, hb, rfl, phase, left⟩
      · cases d with | segmentEnd hb left => exact ⟨_, hb, rfl, left⟩
      · cases d with | tWait hb left => exact ⟨_, hb, rfl, left⟩
      · cases d with | rangeStep h left => exact ⟨_, h, left⟩
      · cases d with | sweepStep h => exact h
      · cases d with | lossHold h => exact h
      · cases d with | alignHold h => exact h
      · cases d with | tTest bus left => exact ⟨_, bus, left⟩
      · cases d
    · exact ⟨nofun, nofun, nofun, nofun, nofun, nofun, nofun, nofun, nofun, nofun, nofun, nofun, nofun, nofun, nofun, nofun,
        fun _ _ => he⟩
  · simp only [← tSeize_eq, due_ordinary ordinary]
    refine ⟨fun p n h ms => (Due.offHook h ms).mem, fun p n h ms => (Due.onHook h ms).mem,
      fun p n h make ms => (Due.digitEnd h make ms).mem, fun p h => (Due.pulseEnd h).mem, fun p h => (Due.gapEnd h).mem,
      fun e b h => ⟨fun phase left => (Due.tAccept h phase left).mem, fun phase left => (Due.tRingwait h phase left).mem,
        fun phase left => (Due.tRingmax h phase left).mem, fun phase left => (Due.tRelease h phase left).mem⟩,
      fun r h left => (Due.segmentEnd h left).mem, fun w h left => (Due.tWait h left).mem,
      fun w h left => (Due.rangeStep h left).mem, fun h => (Due.sweepStep h).mem, fun h => (Due.lossHold h).mem,
      fun h => (Due.alignHold h).mem, fun h bus left => (Due.tTest bus left).mem⟩
  · exact ⟨_, (due_storeClear h).trans (if_pos rfl)⟩
  · have engine : ∀ left, s.engine ≠ .storeClear left := by
      rintro left he
      unfold State.storeClearing at ordinary
      rw [he] at ordinary
      cases ordinary
    unfold State.tick
    rw [if_neg (by simp [ordinary]), Engine.tick_eq engine, funext Port.tick_eq]
    rfl
  · unfold State.tick State.storeClearing
    rw [h]
    rfl

end Sys2Proof.Machine
end

section
/-!
PROOFS. Voice.lean: a state in the middle of an event, as what it holds apart from its messages and the two lists of
messages that the event has sent so far. Every rule below says what one operation of the model adds to them.
-/
namespace Sys2Proof.Machine

open Sys2Proof.Safety

/-- What is heard of messages: all of them while the link is UP, nothing otherwise (R192). -/
def State.heard (s : State) (ms : List Message) : List Message := if s.link = .up then ms else []

theorem heard_append (s : State) (a b : List Message) : s.heard (a ++ b) = s.heard a ++ s.heard b := by
  unfold State.heard
  split <;> simp

theorem heard_nil (s : State) : s.heard [] = [] := ite_self _

/-- The event stands at `s`, `a` has left, and `b` follows: at the end of the event when it holds its way out, else it
has left too (R178). -/
def voice (held : Bool) (s : State) (a b : List Message) : State :=
  { s with
    out := if held then { sent := s.out.sent ++ s.heard a, held := s.heard b, holding := true }
           else { sent := s.out.sent ++ s.heard (a ++ b), held := [], holding := false } }

variable {s : State} (held : Bool) (a b : List Message)

theorem outbox_quiet (hq : Quiet s) : ({ sent := s.out.sent, held := [], holding := false } : Outbox) = s.out := by
  rw [← hq.1, ← hq.2]

/-- An event that holds nothing back begins. -/
theorem voice_begin (hq : Quiet s) : voice false s [] [] = s := by
  simp only [voice, List.append_nil, heard_nil, Bool.false_eq_true, if_false, outbox_quiet hq]

/-- A message is taken. -/
theorem taken_voice (hq : Quiet s) : s.taken = voice true { s with assembly := [] } [] [] := by
  simp only [voice, State.taken, heard_nil, List.append_nil, if_true, hq.1]

/-- An event that holds nothing back ends. -/
theorem voice_telling (hq : Quiet s) : voice false s a b = telling s (a ++ b) := by
  unfold voice telling State.heard
  by_cases hl : s.link = .up
  · simp [hl, hq.1, hq.2]
  · simp [hl, outbox_quiet hq]

/-- A message taken leaves its answers. -/
theorem voice_answering (hl : s.link = .up) (hq : Quiet s) :
    voice false { s with assembly := [] } a b = answering s (a ++ b) := by
  simp [voice, answering, State.heard, hl, hq.1, hq.2]

theorem voice_release : (voice held s a b).release = voice false s a b := by
  cases held <;> simp [voice, State.release, heard_append]

/-- Only the order of the messages counts once they have left. -/
theorem voice_left : voice false s a b = voice false s (a ++ b) [] := by
  simp [voice]

theorem voice_send (m : Message) : (voice held s a b).send m = voice held s a (b ++ [m]) := by
  by_cases hl : s.link = .up <;> cases held <;> simp [voice, State.send, State.heard, hl]

theorem voice_sends (ms : List Message) : ms.foldl State.send (voice held s a b) = voice held s a (b ++ ms) := by
  induction ms generalizing b with
  | nil => simp
  | cons m ms ih => rw [List.foldl_cons, voice_send, ih, List.append_assoc, List.singleton_append]

/-- A message that leaves at once, before any message that waits (R178). -/
theorem voice_sendNow (m : Message) : (voice held s a []).sendNow m = voice held s (a ++ [m]) [] := by
  by_cases hl : s.link = .up <;> cases held <;> simp [voice, State.sendNow, State.heard, hl]

/-- The reply goes before the messages that wait, and the event is over (R178). -/
theorem voice_reply (m : Message) : (voice true s a b).reply m = voice false s (a ++ m :: b) [] := by
  by_cases hl : s.link = .up <;> simp [voice, State.reply, State.sendNow, State.release, State.heard, hl]

theorem voice_hold : (voice held s a b).hold =
    if held then voice true s a b else voice true s (a ++ b) [] := by
  cases held <;> simp [voice, State.hold, heard_nil]

/-- A failure's own reports come before what its handling adds (R178). -/
theorem voice_reporting {t : State} {f : State → State} {more : List Message} (own : List Message)
    (hf : ∀ a b, f (voice true s a b) = voice true t a (b ++ more)) :
    (voice held s a b).reporting own f = voice held t a (b ++ own ++ more) := by
  unfold State.reporting
  cases held with
  | true => rw [if_pos (by rfl), voice_sends, hf]
  | false =>
    rw [if_neg (by simp [voice]), voice_hold, if_neg (by simp), voice_sends, hf, voice_release, voice_left,
      voice_left (s := t) (a := a)]
    simp

end Sys2Proof.Machine
end

section
/-!
PROOFS. Pass.lean: the budget pass one move at a time (O36), and what it does not look at: a pass over readable calls is
the same whatever stands beside the ringing lists.
-/
namespace Sys2Proof.Machine

open Sys2Proof.Safety

variable {s t : State} {e : EntryNo} {b : Binding} {r : RingEntry} {q : QueueEntry} {rest : List QueueEntry}

/-! ## One move -/

/-- The ringer of this entry is shed (R126). -/
def shedOf (s : State) (r : RingEntry) (e : EntryNo) (b : Binding) : State :=
  { s with
    ringList := s.ringList.filter fun x => !decide (x.handle = r.handle)
    committed := s.committed - ((s.ringList.filter fun x => decide (x.handle = r.handle)).map (·.load)).sum
    ringQueue := { handle := r.handle, port := r.port, cadence := r.cadence, load := r.load } :: s.ringQueue
    counters := { s.counters with ringSheds := min (s.counters.ringSheds + 1) 65535 }
    entries := s.entries.set e
      { binding := some { b with phase := .ringWait, tRingwait := some (s.params.tRingwait * 1000) }, damaged := false } }

/-- The head of the ring queue, its binding in this entry, starts ringing (R128). -/
def startOf (s : State) (q : QueueEntry) (e : EntryNo) (b : Binding) : State :=
  { s with
    ringQueue := s.ringQueue.filter fun x => !decide (x.handle = q.handle)
    ringList := s.ringList ++
      [{ handle := q.handle, port := q.port, cadence := q.cadence, load := q.load, segment := 0
         left := (s.cadences[q.cadence])[0]?.getD 0 * 50 }]
    committed := s.committed + q.load
    entries := s.entries.set e { binding := some { b with phase := .ringing, tRingwait := none }, damaged := false } }

theorem shedTail_named (h : Named s r.handle e b) : s.shedTail r = shedOf s r e b := by
  obtain ⟨found, good⟩ := h
  unfold State.shedTail
  rw [found]
  dsimp only
  rw [if_neg (by simp [good])]
  rfl

theorem shedTail_gone (h : s.byHandle r.handle = none) : s.shedTail r = s.dropRinging r.handle := by
  unfold State.shedTail
  rw [h]

theorem startHead_named (h : Named s q.handle e b) : s.startHead q = startOf s q e b := by
  obtain ⟨found, good⟩ := h
  unfold State.startHead
  rw [found]
  dsimp only
  rw [if_neg (by simp [good])]
  rfl

theorem startHead_gone (h : s.byHandle q.handle = none) : s.startHead q = s.dropQueued q.handle := by
  unfold State.startHead
  rw [h]

/-! ## Fuel -/

theorem failEntry_ringQueue (outer : Nat → List Message) (h : (s.entry e).binding = some b) :
    (s.failEntry id outer e).ringQueue = (unringing s b.handle).ringQueue := by
  have retired (t : State) (k : Nat) (ht : t.ringQueue = s.ringQueue) :
      (t.retireFailed id e b k).ringQueue = (unringing s b.handle).ringQueue := by
    have left : (t.leaveRinging id b.handle).ringQueue = (unringing t b.handle).ringQueue := by
      by_cases hn : NotRinging t b.handle
      · rw [leaveRinging_none _ hn, unringing_none hn]
      · rw [leaveRinging_some _ hn]; rfl
    unfold State.retireFailed
    dsimp only
    rw [(calls_completeCease _ _).2.1, State.settle_eq]
    exact left.trans (by unfold unringing; dsimp only; rw [ht])
  have ends (t : State) (own : List Message) (k : Nat) (ht : t.ringQueue = s.ringQueue) :
      (t.reporting own fun u => u.retireFailed id e b k).ringQueue = (unringing s b.handle).ringQueue :=
    reporting_ends (P := fun u => u.ringQueue = (unringing s b.handle).ringQueue) _
      (fun u hu => retired u k ((congrArg Tables.ringQueue hu.tables).trans ht)) fun _ h => h
  unfold State.failEntry
  dsimp only
  rw [show (s.countFault.entry e).binding = some b from h]
  dsimp only
  split
  · exact ends s.countFault.countFault _ _ rfl
  · exact ends _ _ _ (congrArg Tables.ringQueue (outward_sendNow s.countFault _).tables)

/-- A start makes the ring queue shorter, whether its entry reads good or not (R128, R182). -/
theorem startHead_shorter (hq : q ∈ s.ringQueue) : (s.startHead q).ringQueue.length < s.ringQueue.length := by
  have shorter : (s.ringQueue.filter fun x => !decide (x.handle = q.handle)).length < s.ringQueue.length :=
    List.length_filter_lt_length_iff_exists.mpr ⟨q, hq, by simp⟩
  unfold State.startHead
  split
  · exact shorter
  · next f c hf =>
    obtain ⟨hc, hh⟩ := findBinding_found hf
    split
    · rw [failEntry_ringQueue _ hc]
      rw [show c.handle = q.handle by simpa using hh]
      exact shorter
    · exact shorter

/-- With fuel enough, more of it changes nothing. -/
theorem shedStep_fuel {m n : Nat} (hm : s.ringList.length < m) (hn : s.ringList.length < n) :
    s.shedStep m = s.shedStep n := by
  induction m generalizing s n with
  | zero => omega
  | succ m ih =>
    cases n with
    | zero => omega
    | succ n =>
      unfold State.shedStep
      split
      · split
        · next r hr =>
          have shorter := shedTail_shorter (List.mem_of_getLast? hr)
          exact ih (by omega) (by omega)
        · rfl
      · rfl

theorem admitStep_fuel {m n : Nat} (hm : s.ringQueue.length < m) (hn : s.ringQueue.length < n) :
    s.admitStep m = s.admitStep n := by
  induction m generalizing s n with
  | zero => omega
  | succ m ih =>
    cases n with
    | zero => omega
    | succ n =>
      unfold State.admitStep
      split
      · next q rest hq =>
        split
        · have shorter := startHead_shorter (s := s) (q := q) (by rw [hq]; exact List.mem_cons_self)
          exact ih (by omega) (by omega)
        · rfl
      · rfl

/-! ## The pass, move by move -/

/-- Shedding goes on (R125). -/
abbrev Sheds (s : State) : Prop := s.available < s.committed ∧ (s.available = 0 ∨ 1 < s.ringList.length)

theorem shedStep_over (h : ¬ Sheds s) (n : Nat) : s.shedStep n = s := by
  cases n with
  | zero => rfl
  | succ n => exact if_neg h

theorem budgetPass_shed (h : Sheds s) (hr : s.ringList.getLast? = some r) :
    s.budgetPass = (s.shedTail r).budgetPass := by
  have shorter := shedTail_shorter (List.mem_of_getLast? hr)
  have first : s.shedStep (s.ringList.length + 1) = (s.shedTail r).shedStep s.ringList.length := by
    rw [State.shedStep, if_pos h, hr]
  unfold State.budgetPass
  rw [first, shedStep_fuel shorter (Nat.lt_succ_self _)]

theorem budgetPass_start (h : ¬ Sheds s) (hq : s.ringQueue.head? = some q) (fits : s.mayStart q = true)
    (after : ¬ Sheds (s.startHead q)) : s.budgetPass = (s.startHead q).budgetPass := by
  obtain ⟨rest, hq⟩ := List.head?_eq_some_iff.mp hq
  have shorter := startHead_shorter (s := s) (q := q) (by rw [hq]; exact List.mem_cons_self)
  have first : s.admitStep (s.ringQueue.length + 1) = (s.startHead q).admitStep s.ringQueue.length := by
    rw [State.admitStep, hq]
    dsimp only
    rw [if_pos fits]
  unfold State.budgetPass
  dsimp only
  rw [shedStep_over h, shedStep_over after, first, admitStep_fuel shorter (Nat.lt_succ_self _)]

theorem mayStart_iff : s.mayStart q = true ↔ s.committed + q.load ≤ s.available ∨ (s.committed = 0 ∧ 0 < s.available) := by
  simp [State.mayStart]

theorem budgetPass_over (h : ¬ Sheds s) (hq : ∀ q, s.ringQueue.head? = some q → s.mayStart q = false) :
    s.budgetPass = s := by
  unfold State.budgetPass
  rw [shedStep_over h]
  dsimp only
  unfold State.admitStep
  split
  · next q rest hr => rw [if_neg (by simp [hq q (by rw [hr]; rfl)])]
  · rfl

/-- Settles O36: a pass is its first move and then a pass, since more fuel than the lists are long changes nothing. -/
theorem budgetPassMoves : Obligations.BudgetPassMoves := by
  refine fun s => ⟨fun r e b above many last named => ?_, fun q e b within head fits named => ?_,
    fun q e b empty zero power head _ named => ?_, fun within head => ?_⟩
  · rw [budgetPass_shed ⟨above, many⟩ last, shedTail_named named]
    rfl
  · have after : ¬ Sheds (startOf s q e b) := fun x => absurd x.1 (Nat.not_lt.mpr fits)
    rw [budgetPass_start (by omega) head (mayStart_iff.mpr (.inl fits)) (startHead_named named ▸ after),
      startHead_named named]
    rfl
  · have alone : startOf s q e b =
        { s with
          ringQueue := s.ringQueue.filter fun x => !decide (x.handle = q.handle)
          ringList :=
            [{ handle := q.handle, port := q.port, cadence := q.cadence, load := q.load, segment := 0
               left := (s.cadences[q.cadence])[0]?.getD 0 * 50 }]
          committed := q.load
          entries := s.entries.set e
            { binding := some { b with phase := .ringing, tRingwait := none }, damaged := false } } := by
      unfold startOf
      rw [empty, zero, Nat.zero_add, List.nil_append]
    have after : ¬ Sheds (startOf s q e b) := by
      rw [alone]
      rintro ⟨-, h⟩
      rcases h with h | h
      · exact absurd h (Nat.ne_of_gt power)
      · exact absurd h (Nat.lt_irrefl 1)
    rw [budgetPass_start (by omega) head (mayStart_iff.mpr (.inr ⟨zero, power⟩)) (startHead_named named ▸ after),
      startHead_named named, alone]
  · refine budgetPass_over (by omega) fun q hq => ?_
    obtain ⟨tall, busy⟩ := head q hq
    rw [← Bool.not_eq_true, mayStart_iff]
    omega

/-! ## What the pass does not look at -/

/-- Updates `f` that a pass from states in `P` can make before or after it. -/
structure Beside (P : State → Prop) (f : State → State) : Prop where
  lists : ∀ {s}, P s → (f s).ringList = s.ringList ∧ (f s).ringQueue = s.ringQueue ∧ (f s).committed = s.committed ∧
    (f s).available = s.available
  shed : ∀ {s r}, P s → s.ringList.getLast? = some r → P (s.shedTail r) ∧ (f s).shedTail r = f (s.shedTail r)
  start : ∀ {s q}, P s → s.ringQueue.head? = some q → P (s.startHead q) ∧ (f s).startHead q = f (s.startHead q)

section
variable {P : State → Prop} {f : State → State}

theorem Beside.shedStep (c : Beside P f) (h : P s) (n : Nat) :
    P (s.shedStep n) ∧ (f s).shedStep n = f (s.shedStep n) := by
  induction n generalizing s with
  | zero => exact ⟨h, rfl⟩
  | succ n ih =>
    obtain ⟨hl, -, hc, ha⟩ := c.lists h
    unfold State.shedStep
    rw [hl, hc, ha]
    split
    · cases hr : s.ringList.getLast? with
      | some r =>
        obtain ⟨hp, he⟩ := c.shed h hr
        exact ⟨(ih hp).1, by dsimp only; rw [he]; exact (ih hp).2⟩
      | none => exact ⟨h, rfl⟩
    · exact ⟨h, rfl⟩

theorem Beside.admitStep (c : Beside P f) (h : P s) (n : Nat) : (f s).admitStep n = f (s.admitStep n) := by
  induction n generalizing s with
  | zero => rfl
  | succ n ih =>
    obtain ⟨-, hq, hc, ha⟩ := c.lists h
    unfold State.admitStep State.mayStart
    rw [hq, hc, ha]
    cases hs : s.ringQueue with
    | nil => rfl
    | cons q rest =>
      dsimp only
      split
      · obtain ⟨hp, he⟩ := c.start h (by rw [hs]; rfl)
        rw [he]
        exact ih hp
      · rfl

theorem Beside.budgetPass (c : Beside P f) (h : P s) : (f s).budgetPass = f s.budgetPass := by
  obtain ⟨hp, he⟩ := c.shedStep h (s.ringList.length + 1)
  unfold State.budgetPass
  dsimp only
  rw [(c.lists h).1, he, (c.lists hp).2.1, c.admitStep hp]

end

/-- Every entry whose handle stands in a ringing list reads good, so a pass meets no failure (R182). -/
abbrev ListedRead (s : State) : Prop :=
  ∀ f, ∀ c ∈ (s.entry f).binding, ¬ NotRinging s c.handle → (s.entry f).damaged = false

theorem EntriesRead.listed (h : EntriesRead s) : ListedRead s := fun f _ _ _ => h f

theorem listedRead_off (h : ∀ f, f ≠ e → (s.entry f).damaged = false) (hb : (s.entry e).binding = some b)
    (hn : NotRinging s b.handle) : ListedRead s := by
  intro f c hc listed
  by_cases hf : f = e
  · subst hf
    rw [hb] at hc
    cases hc
    exact absurd hn listed
  · exact h f hf

/-- The handles in the ringing lists of `t` stand in those of `s`. -/
abbrev Narrower (s t : State) : Prop := ∀ h, NotRinging s h → NotRinging t h

theorem narrower_dropRinging (k : Nat) : Narrower s (s.dropRinging k) := fun _ h =>
  ⟨fun r hr => h.1 r (mem_of_filter hr), h.2⟩

theorem narrower_dropQueued (k : Nat) : Narrower s (s.dropQueued k) := fun _ h =>
  ⟨h.1, fun q hq => h.2 q (mem_of_filter hq)⟩

theorem narrower_shedOf (hr : r ∈ s.ringList) : Narrower s (shedOf s r e b) := by
  refine fun h hn => ⟨fun x hx => hn.1 x (mem_of_filter hx), fun x hx => ?_⟩
  rcases List.mem_cons.mp hx with rfl | hx
  · exact hn.1 r hr
  · exact hn.2 x hx

theorem narrower_startOf (hq : q ∈ s.ringQueue) : Narrower s (startOf s q e b) := by
  refine fun h hn => ⟨fun x hx => ?_, fun x hx => hn.2 x (mem_of_filter hx)⟩
  rcases List.mem_append.mp hx with hx | hx
  · exact hn.1 x hx
  · rw [List.mem_singleton.mp hx]
    exact hn.2 q hq

theorem notRinging_unringing (k : Nat) : NotRinging (unringing s k) k :=
  ⟨fun r hr => by simpa using (List.mem_filter.mp hr).2, fun q hq => by simpa using (List.mem_filter.mp hq).2⟩

theorem ListedRead.narrow (h : ListedRead s) (n : Narrower s t) (he : t.entries = s.entries) : ListedRead t := by
  intro f c hc listed
  rw [State.entry_congr he] at hc ⊢
  exact h f c hc fun x => listed (n _ x)

theorem entry_writeEntry_at (s : State) (e f : EntryNo) (c : Option Binding) :
    (s.writeEntry e c).entry f = if f = e then { binding := c, damaged := false } else s.entry f := by
  by_cases hf : f = e
  · subst hf
    simp [State.writeEntry, State.setEntry, State.entry]
  · have hv : e.val ≠ f.val := fun x => hf (Fin.ext x.symm)
    simp [State.writeEntry, State.setEntry, State.entry, hv, hf]

theorem ListedRead.written (h : ListedRead s) (n : Narrower s t) {c : Option Binding}
    (he : t.entries = (s.writeEntry e c).entries) : ListedRead t := by
  intro f d hd listed
  rw [State.entry_congr he, entry_writeEntry_at] at hd ⊢
  split
  · rfl
  · next hf => exact h f d (by rwa [if_neg hf] at hd) fun x => listed (n _ x)

/-- The call of a listed handle reads good. -/
theorem ListedRead.named (h : ListedRead s) {k : Nat} (hb : s.byHandle k = some (e, b)) (listed : ¬ NotRinging s k) :
    Named s k e b := by
  obtain ⟨found, hk⟩ := findBinding_found hb
  have hk : b.handle = k := by simpa using hk
  exact ⟨hb, h e b found (by rwa [hk])⟩

theorem listed_of_ringing (hr : r ∈ s.ringList) : ¬ NotRinging s r.handle := fun h => h.1 r hr rfl

theorem listed_of_queued (hq : q ∈ s.ringQueue) : ¬ NotRinging s q.handle := fun h => h.2 q hq rfl

/-- The state `t` with what the pass works on taken from `x`: the ringing lists, L, the calls and the count of sheds. -/
def onto (t x : State) : State :=
  { t with
    ringQueue := x.ringQueue, ringList := x.ringList, committed := x.committed, entries := x.entries
    counters := { t.counters with ringSheds := x.counters.ringSheds } }

/-- What the pass reads and does not write (R111, R121, R126). -/
abbrev SameMeasure (s t : State) : Prop :=
  t.available = s.available ∧ t.params = s.params ∧ t.cadences = s.cadences

/-- The pass neither reads nor writes anything else. -/
theorem beside_onto (t : State) : Beside (fun s => ListedRead s ∧ SameMeasure s t) (onto t) where
  lists := fun ⟨_, ha, _⟩ => ⟨rfl, rfl, rfl, ha⟩
  shed := by
    rintro s r ⟨h, ha, hp, hc⟩ hr
    have mem := List.mem_of_getLast? hr
    cases hb : s.byHandle r.handle with
    | none =>
      rw [shedTail_gone hb, shedTail_gone (s := onto t s) hb]
      exact ⟨⟨h.narrow (narrower_dropRinging _) rfl, ha, hp, hc⟩, rfl⟩
    | some x =>
      have named := h.named hb (listed_of_ringing mem)
      rw [shedTail_named named, shedTail_named (s := onto t s) named]
      refine ⟨⟨h.written (e := x.1) (narrower_shedOf mem) rfl, ha, hp, hc⟩, ?_⟩
      unfold shedOf onto
      dsimp only
      rw [hp]
  start := by
    rintro s q ⟨h, ha, hp, hc⟩ hq
    have mem := List.mem_of_mem_head? hq
    cases hb : s.byHandle q.handle with
    | none =>
      rw [startHead_gone hb, startHead_gone (s := onto t s) hb]
      exact ⟨⟨h.narrow (narrower_dropQueued _) rfl, ha, hp, hc⟩, rfl⟩
    | some x =>
      have named := h.named hb (listed_of_queued mem)
      rw [startHead_named named, startHead_named (s := onto t s) named]
      refine ⟨⟨h.written (e := x.1) (narrower_startOf mem) rfl, ha, hp, hc⟩, ?_⟩
      unfold startOf onto
      dsimp only
      rw [hc]

/-- A pass that meets no failure changes the ringing lists, L, the calls and the count of sheds alone. -/
theorem budgetPass_onto (h : ListedRead s) : s.budgetPass = onto s s.budgetPass :=
  (beside_onto s).budgetPass (s := s) ⟨h, rfl, rfl, rfl⟩

/-- An update of other fields can be made before the pass or after it. -/
theorem budgetPass_beside (f : State → State) (h : ListedRead s) (m : SameMeasure s (f s))
    (hf : ∀ x, f (onto s x) = onto (f s) x) : (f s).budgetPass = f s.budgetPass := by
  have same : f s = onto (f s) s := hf s
  calc (f s).budgetPass = (onto (f s) s).budgetPass := by rw [← same]
    _ = onto (f s) s.budgetPass := (beside_onto (f s)).budgetPass ⟨h, m⟩
    _ = f s.budgetPass := by rw [← hf, ← budgetPass_onto h]

theorem findBinding_set {x : Entry} {test : Binding → Bool} (old : ∀ c ∈ (s.entry e).binding, test c = false)
    (new : ∀ c ∈ x.binding, test c = false) : (s.setEntry e x).findBinding test = s.findBinding test := by
  unfold State.findBinding
  congr 1
  funext f
  by_cases hf : f = e
  · subst hf
    have hx : (s.setEntry f x).entry f = x := by simp [State.setEntry, State.entry]
    rw [hx]
    have nothing (y : Entry) (hy : ∀ c ∈ y.binding, test c = false) :
        (match y.binding with
          | some b => if test b then some (f, b) else none
          | none => none) = none := by
      split
      · next c hc => rw [hy c hc]; rfl
      · rfl
    exact (nothing x new).trans (nothing _ old).symm
  · have hv : e.val ≠ f.val := fun x => hf (Fin.ext x.symm)
    rw [show (s.setEntry e x).entry f = s.entry f by simp [State.setEntry, State.entry, hv]]

/-- Neither the binding an entry holds nor the one it is given stands in a ringing list. -/
abbrev Unlisted (s : State) (e : EntryNo) (x : Entry) : Prop :=
  (∀ c ∈ (s.entry e).binding, NotRinging s c.handle) ∧ ∀ c ∈ x.binding, NotRinging s c.handle

theorem Unlisted.byHandle {x : Entry} (h : Unlisted s e x) {k : Nat} (listed : ¬ NotRinging s k) :
    (s.setEntry e x).byHandle k = s.byHandle k := by
  have off (c : Binding) (hc : NotRinging s c.handle) : decide (c.handle = k) = false :=
    decide_eq_false fun he => listed (he ▸ hc)
  exact findBinding_set (fun c hc => off c (h.1 c hc)) fun c hc => off c (h.2 c hc)

theorem Unlisted.ne {x : Entry} (h : Unlisted s e x) {k : Nat} {f : EntryNo} (listed : ¬ NotRinging s k)
    (hb : s.byHandle k = some (f, b)) : f ≠ e := by
  rintro rfl
  obtain ⟨found, hk⟩ := findBinding_found hb
  have hk : b.handle = k := by simpa using hk
  exact listed (hk ▸ h.1 b found)

theorem Unlisted.named {x : Entry} (h : Unlisted s e x) {k : Nat} {f : EntryNo} (listed : ¬ NotRinging s k)
    (hb : Named s k f b) : Named (s.setEntry e x) k f b := by
  have hne := h.ne listed hb.1
  have hv : e.val ≠ f.val := fun x => hne (Fin.ext x.symm)
  exact ⟨(h.byHandle listed).trans hb.1, by simpa [State.setEntry, State.entry, hv] using hb.2⟩

theorem Unlisted.narrow {x : Entry} (h : Unlisted s e x) (n : Narrower s t) (he : t.entry e = s.entry e) :
    Unlisted t e x :=
  ⟨fun c hc => n _ (h.1 c (he ▸ hc)), fun c hc => n _ (h.2 c hc)⟩

/-- The pass neither reads nor writes an entry that no list names. -/
theorem beside_setEntry (e : EntryNo) (x : Entry) :
    Beside (fun s => ListedRead s ∧ Unlisted s e x) (fun s => s.setEntry e x) where
  lists := fun _ => ⟨rfl, rfl, rfl, rfl⟩
  shed := by
    rintro s r ⟨h, hu⟩ hr
    have mem := List.mem_of_getLast? hr
    have listed := listed_of_ringing mem
    cases hb : s.byHandle r.handle with
    | none =>
      rw [shedTail_gone hb, shedTail_gone (s := s.setEntry e x) ((hu.byHandle listed).trans hb)]
      exact ⟨⟨h.narrow (narrower_dropRinging _) rfl, hu.narrow (narrower_dropRinging _) rfl⟩, rfl⟩
    | some y =>
      have named := h.named hb listed
      have hne := hu.ne listed hb
      have hv : y.1.val ≠ e.val := fun h => hne (Fin.ext h)
      rw [shedTail_named named, shedTail_named (hu.named listed named)]
      refine ⟨⟨h.written (e := y.1) (narrower_shedOf mem) rfl, hu.narrow (narrower_shedOf mem) ?_⟩, ?_⟩
      · simp [shedOf, State.entry, hv]
      · unfold shedOf State.setEntry
        dsimp only
        rw [Vector.set_comm _ _ (Ne.symm hv)]
  start := by
    rintro s q ⟨h, hu⟩ hq
    have mem := List.mem_of_mem_head? hq
    have listed := listed_of_queued mem
    cases hb : s.byHandle q.handle with
    | none =>
      rw [startHead_gone hb, startHead_gone (s := s.setEntry e x) ((hu.byHandle listed).trans hb)]
      exact ⟨⟨h.narrow (narrower_dropQueued _) rfl, hu.narrow (narrower_dropQueued _) rfl⟩, rfl⟩
    | some y =>
      have named := h.named hb listed
      have hne := hu.ne listed hb
      have hv : y.1.val ≠ e.val := fun h => hne (Fin.ext h)
      rw [startHead_named named, startHead_named (hu.named listed named)]
      refine ⟨⟨h.written (e := y.1) (narrower_startOf mem) rfl, hu.narrow (narrower_startOf mem) ?_⟩, ?_⟩
      · simp [startOf, State.entry, hv]
      · unfold startOf State.setEntry
        dsimp only
        rw [Vector.set_comm _ _ (Ne.symm hv)]

/-- A write of an entry that no list names can be made before the pass or after it. -/
theorem budgetPass_setEntry {x : Entry} (h : ListedRead s) (hu : Unlisted s e x) :
    (s.setEntry e x).budgetPass = s.budgetPass.setEntry e x :=
  (beside_setEntry e x).budgetPass ⟨h, hu⟩

end Sys2Proof.Machine
end

section
/-!
PROOFS. Findings.lean: what a record failure adds to an event and leaves behind (R178 to R183): a binding out of the
ringing lists, a deferred cease, and the failure actions of the three kinds of record, each once for an event that
holds its way out and one that does not.
-/
namespace Sys2Proof.Machine

open Sys2Proof.Safety

variable {s t u : State} {p : PortNo} {e : EntryNo} {c : Binding} {k : Nat} {more : List Message}

theorem faulted_faulted (s : State) (m n : Nat) : faulted (faulted s m) n = faulted s (m + n) := by
  have sum : min (min (s.counters.integrityFaults + m) 65535 + n) 65535 = min (s.counters.integrityFaults + (m + n)) 65535 :=
    by omega
  unfold faulted
  dsimp only
  rw [sum]

/-! ## Out of the ringing lists (R129) -/

theorem leaveRinging_eq (s : State) (k : Nat) : s.leaveRinging State.budgetPass k = leftRinging s k := by
  unfold leftRinging
  split
  · next hn => exact leaveRinging_none _ hn
  · next hn => exact leaveRinging_some _ hn

/-- The handle rings in no list, or every other listed call reads good: either way the removal of it meets no failure. -/
abbrev Leavable (s : State) (k : Nat) : Prop := NotRinging s k ∨ ListedRead (unringing s k)

theorem leavable_of_read (h : NotRinging s k ∨ EntriesRead s) : Leavable s k :=
  h.imp_right fun h => EntriesRead.listed (s := unringing s k) h

/-- The entry of the handle itself need not read good. -/
theorem leavable_of_others (hb : (s.entry e).binding = some c)
    (h : NotRinging s c.handle ∨ ∀ f, f ≠ e → (s.entry f).damaged = false) : Leavable s c.handle :=
  h.imp_right fun h => listedRead_off (s := unringing s c.handle) h hb (notRinging_unringing _)

theorem leftRinging_none (hn : NotRinging s k) : leftRinging s k = s := if_pos hn

theorem leftRinging_some (hn : ¬ NotRinging s k) : leftRinging s k = (unringing s k).budgetPass := if_neg hn

/-- An update that the removal of a handle does not look at and that keeps nothing of what it writes. -/
abbrev Framed (s : State) (f : State → State) : Prop :=
  SameMeasure s (f s) ∧ ∀ x, f (onto s x) = onto (f s) x

theorem Framed.same {f : State → State} (h : Framed s f) : f s = onto (f s) s := h.2 s

theorem Framed.notRinging {f : State → State} (h : Framed s f) : NotRinging (f s) k ↔ NotRinging s k := by
  rw [h.same]
  rfl

theorem Framed.leavable {f : State → State} (h : Framed s f) (hr : Leavable s k) : Leavable (f s) k := by
  refine hr.imp h.notRinging.mpr fun read => ?_
  rw [h.same]
  exact read

theorem leftRinging_framed {f : State → State} (h : Framed s f) (hr : Leavable s k) :
    leftRinging (f s) k = f (leftRinging s k) := by
  by_cases hn : NotRinging s k
  · rw [leftRinging_none hn, leftRinging_none (h.notRinging.mpr hn)]
  · have read := hr.resolve_left hn
    have out : unringing (f s) k = f (unringing s k) :=
      calc unringing (f s) k = unringing (onto (f s) s) k := by rw [← h.same]
        _ = onto (f s) (unringing s k) := rfl
        _ = f (unringing s k) := (h.2 _).symm
    rw [leftRinging_some hn, leftRinging_some (fun x => hn (h.notRinging.mp x)), out]
    refine budgetPass_beside f read ?_ fun x => ?_
    · rw [← out]
      exact h.1
    · rw [← out]
      exact h.2 x

theorem leftRinging_onto (hr : Leavable s k) : leftRinging s k = onto s (leftRinging s k) :=
  leftRinging_framed (f := onto s) ⟨⟨rfl, rfl, rfl⟩, fun _ => rfl⟩ hr

/-- Every binding the entry holds bears this handle. -/
abbrev Bears (x : Entry) (k : Nat) : Prop := ∀ c ∈ x.binding, c.handle = k

theorem bears_some (h : c.handle = k) (d : Bool) : Bears { binding := some c, damaged := d } k := by
  rintro _ ⟨⟩
  exact h

theorem bears_of_eq {x : Entry} (h : x.binding = some c) : Bears x c.handle := by
  rintro d hd
  rw [h] at hd
  cases hd
  rfl

theorem leftRinging_setEntry {x : Entry} (old : Bears (s.entry e) k) (new : Bears x k) (hr : Leavable s k) :
    leftRinging (s.setEntry e x) k = (leftRinging s k).setEntry e x := by
  by_cases hn : NotRinging s k
  · rw [leftRinging_none hn, leftRinging_none (s := s.setEntry e x) hn]
  · have out := notRinging_unringing (s := s) k
    have unlisted : Unlisted (unringing s k) e x :=
      ⟨fun c hc => (old c hc) ▸ out, fun c hc => (new c hc) ▸ out⟩
    rw [leftRinging_some hn, leftRinging_some (s := s.setEntry e x) hn]
    exact budgetPass_setEntry (hr.resolve_left hn) unlisted

theorem Leavable.writeEntry (hr : Leavable s k) (x : Option Binding) : Leavable (s.writeEntry e x) k :=
  hr.imp id fun h => h.written (t := unringing (s.writeEntry e x) k) (e := e) (c := x) (fun _ h => h) rfl

/-- In an event standing at `s`, the removal of this handle from the ringing lists leaves `t` and says nothing. -/
def Leaves (s : State) (k : Nat) (t : State) : Prop :=
  ∀ held a b, (voice held s a b).leaveRinging State.budgetPass k = voice held t a b

theorem leaves_leftRinging (hr : Leavable s k) : Leaves s k (leftRinging s k) := fun held a b =>
  (leaveRinging_eq _ _).trans (leftRinging_framed (f := fun x => voice held x a b) ⟨⟨rfl, rfl, rfl⟩, fun _ => rfl⟩ hr)

theorem lastToRing_over (h : LastToRing s k) : (unringing s k).budgetPass = unringing s k := by
  obtain ⟨within, others⟩ := h
  have empty : (unringing s k).ringQueue = [] := List.filter_eq_nil_iff.mpr fun q hq => by simp [others q hq]
  refine budgetPass_over (fun x => absurd x.1 (Nat.not_lt.mpr within)) fun q hq => ?_
  rw [empty] at hq
  cases hq

/-- Nothing is left for the pass to do (R124). -/
theorem leaves_last (h : LastToRing s k) : Leaves s k (unringing s k) := by
  intro held a b
  by_cases hn : NotRinging s k
  · rw [unringing_none hn]
    exact leaveRinging_none _ hn
  · rw [leaveRinging_some (s := voice held s a b) _ hn]
    exact lastToRing_over (s := voice held s a b) h

/-! ## A deferred cease (R15) -/

/-- In an event standing at `s`, what the retirement of the port's binding does with a deferred cease leaves `t` and adds
these messages. -/
def Completes (s : State) (p : PortNo) (k : Nat) (t : State) (more : List Message) : Prop :=
  ∀ held a b, (voice held s a b).completeCease p k = voice held t a (b ++ more)

theorem completes_none (h : ¬ Ceasing s p) : Completes s p k s [] := fun held a b => by
  rw [List.append_nil]
  exact completeCease_none (s := voice held s a b) h k

theorem completes_good (h : Ceasing s p) (hd : (s.line p).damaged = false) :
    Completes s p k (ceased s p (s.line p).total) [.ceased p (s.line p).key (s.line p).total] := fun held a b =>
  (completeCease_good (s := voice held s a b) h hd k).trans (voice_send held (s := ceased s p _) a b _)

theorem quarantine_voice (held : Bool) (s : State) (p : PortNo) (a b : List Message) :
    (voice held s a b).quarantine p = voice held (porting s p (quarantined (s.port p))) a b :=
  State.quarantine_eq _ _

/-- A record found damaged by a retirement: its report follows (R144, R179). -/
theorem lineActionsRetiring_voice (held : Bool) (s : State) (p : PortNo) (k : Nat) (a b : List Message) :
    (voice held s a b).lineActionsRetiring p k = voice held (quarantining s p) a (b ++ [.integrity .line p.val k]) :=
  (voice_reporting held (s := s.countFault.withdraw p) (t := quarantining s p) (more := []) a b _
    fun a b => by rw [List.append_nil]; exact quarantine_voice _ _ _ _ _).trans (by rw [List.append_nil])

theorem completes_damaged (h : Ceasing s p) (hd : (s.line p).damaged = true) :
    Completes s p k (quarantining s p) [.integrity .line p.val k] := fun held a b =>
  (completeCease_damaged (s := voice held s a b) h hd k).trans (lineActionsRetiring_voice held s p k a b)

/-! ## Binding failures (R181) -/

theorem retireFailed_voice {h : Nat} (left : Leaves s c.handle u) (done : Completes (bindingLost u e c) c.port h t more)
    (held : Bool) (a b : List Message) :
    (voice held s a b).retireFailed State.budgetPass e c h = voice held t a (b ++ more) := by
  have ended : ((((voice held u a b).stopInjector c.port).suspect c.slot).writeEntry e none).settle c.port =
      voice held (bindingLost u e c) a b := by
    rw [State.settle_eq]
    have port : ((((voice held u a b).stopInjector c.port).suspect c.slot).writeEntry e none).port c.port =
        { u.port c.port with injector := .idle } := port_porting (voice held u a b) c.port _
    rw [port]
    exact porting_porting { voice held (bindingLost u e c) a b with ports := u.ports } _ _ _
  unfold State.retireFailed
  dsimp only
  rw [left held a b, ended, done held a b]

section
variable (held : Bool) (a : List Message) (outer : Nat → List Message)

/-- A damaged entry whose slot record gives the handle: CLEAR goes at once, the report after what is held (R181). -/
theorem bindingActions_clears (he : (s.entry e).binding = some c) (hs : (s.slot c.slot).damaged = false)
    (left : Leaves (faulted s 1) c.handle u)
    (done : Completes (bindingLost u e c) c.port (s.slot c.slot).handle t more) :
    (voice held s a []).bindingActions outer e =
      voice held t (a ++ [.clear (s.slot c.slot).handle .storeFault c.meterCount])
        (outer (s.slot c.slot).handle ++ [.integrity .binding e.val (s.slot c.slot).handle] ++ more) := by
  unfold State.bindingActions State.failEntry
  dsimp only
  rw [show ((voice held s a []).countFault.entry e).binding = some c from he]
  dsimp only
  rw [if_neg (by rw [show ((voice held s a []).countFault.slot c.slot).damaged = false from hs]; decide)]
  rw [show (voice held s a []).countFault = voice held (faulted s 1) a [] from rfl, voice_sendNow]
  exact voice_reporting held _ _ _ (retireFailed_voice left done true)

/-- A damaged entry whose slot record is damaged too: the handle is lost, no CLEAR leaves, two reports follow (R181). -/
theorem bindingActions_both (he : (s.entry e).binding = some c) (hs : (s.slot c.slot).damaged = true)
    (left : Leaves (faulted s 2) c.handle u) (done : Completes (bindingLost u e c) c.port 0 t more) :
    (voice held s a []).bindingActions outer e =
      voice held t a
        (outer 0 ++ [.integrity .binding e.val 0, .integrity .slot (slotNumber c.slot) 0] ++ more) := by
  unfold State.bindingActions State.failEntry
  dsimp only
  rw [show ((voice held s a []).countFault.entry e).binding = some c from he]
  dsimp only
  rw [if_pos (by exact hs)]
  rw [show (voice held s a []).countFault.countFault = voice held (faulted (faulted s 1) 1) a [] from rfl,
    faulted_faulted]
  exact voice_reporting held _ _ _ (retireFailed_voice left done true)

/-- A damaged entry that holds no binding is written afresh (R181). -/
theorem bindingActions_empty (he : (s.entry e).binding = none) (b : List Message) :
    (voice held s a b).bindingActions outer e =
      voice held (holding (faulted s 1) e none) a (b ++ (outer 0 ++ [.integrity .binding e.val 0])) := by
  unfold State.bindingActions State.failEntry
  dsimp only
  rw [show ((voice held s a b).countFault.entry e).binding = none from he]
  dsimp only
  rw [← List.append_nil (b ++ _)]
  exact voice_reporting held (s := faulted s 1) (t := holding (faulted s 1) e none) a b _
    fun a b => by rw [List.append_nil]; rfl

end

/-! ## Slot failures (R183) -/

section
variable (held : Bool) (a b : List Message) {n : SlotNo}

theorem suspect_voice (s : State) (n : SlotNo) (a b : List Message) :
    (voice held s a b).countFault.suspect n = voice held (slotLost s n) a b := rfl

/-- A slot record found damaged where no call is touched (R51, R52). -/
theorem suspectAtUse_voice (s : State) (n : SlotNo) (k : Nat) :
    (voice held s a b).suspectAtUse n k = voice held (slotLost s n) a (b ++ [.integrity .slot (slotNumber n) k]) :=
  (voice_reporting held (s := slotLost s n) (t := slotLost s n) (more := []) a b _
    fun a b => by rw [List.append_nil]; rfl).trans (by rw [List.append_nil])

/-- A slot record found damaged outside a call (R60). -/
theorem slotActions_idle (h : (s.slot n).state ≠ .bound) :
    (voice held s a b).slotActions n = voice held (slotLost s n) a (b ++ [.integrity .slot (slotNumber n) 0]) := by
  unfold State.slotActions
  dsimp only
  rw [if_neg (by exact h)]
  exact suspectAtUse_voice held a b s n 0

/-- A slot record found damaged under a call whose entry reads good (R183). -/
theorem slotActions_clears (hs : (s.slot n).state = .bound) (named : Named s (s.slot n).handle e c)
    (left : Leaves (slotLost s n) c.handle u) (done : Completes (bindingLost u e c) c.port c.handle t more) :
    (voice held s a []).slotActions n =
      voice held t (a ++ [.clear c.handle .storeFault c.meterCount])
        ([.integrity .slot (slotNumber n) c.handle] ++ more) := by
  obtain ⟨found, good⟩ := named
  unfold State.slotActions
  dsimp only
  rw [if_pos (by exact hs), suspect_voice,
    show (voice held (slotLost s n) a []).byHandle ((voice held s a []).slot n).handle = some (e, c) from found]
  dsimp only
  rw [if_neg (by rw [show ((voice held (slotLost s n) a []).entry e).damaged = false from good]; decide), voice_sendNow]
  exact voice_reporting held _ _ _ (retireFailed_voice left done true)

end

/-! ## Line failures (R179) -/

section
variable (held : Bool) (a b : List Message)

/-- A line record found damaged on a port without a call, or with one in CLEARING. -/
theorem lineActions_idle (h : ∀ e c, s.call p = some (e, c) → c.phase = .clearing) :
    (voice held s a b).lineActions p = voice held (quarantining s p) a (b ++ [.integrity .line p.val 0]) := by
  have found : ((voice held s a b).countFault.withdraw p).reporting [.integrity .line p.val 0]
      (fun u => u.quarantine p) = voice held (quarantining s p) a (b ++ [.integrity .line p.val 0]) :=
    lineActionsRetiring_voice held s p 0 a b
  unfold State.lineActions
  dsimp only
  rw [show ((voice held s a b).countFault.withdraw p).call p = s.call p from rfl]
  cases hc : s.call p with
  | none => exact found
  | some x =>
    dsimp only
    rw [if_pos (h _ _ hc)]
    exact found

/-- A binding enters CLEARING without its CLEAR: the idle injector and `move` come to `f`, and the call leaves the ringing
lists (R84, R129). -/
theorem clearingEffects_leaves {move f : State → State}
    (hm : ∀ x, move ((voice held x a b).stopInjector c.port) = voice held (f x) a b)
    (left : Leaves (f (holding s e (some (inClearing s c)))) c.handle t) :
    (voice held s a b).clearingEffects e c move = voice held t a b := by
  unfold State.clearingEffects
  dsimp only
  rw [show (voice held s a b).writeEntry e (some (c.intoClearing ((voice held s a b).params.tRelease * secondMs))) =
    voice held (holding s e (some (inClearing s c))) a b from rfl, hm, left]

theorem clearingEffects_voice {move f : State → State}
    (hm : ∀ x, move ((voice held x a b).stopInjector c.port) = voice held (f x) a b)
    (frame : ∀ x, Framed x f) (he : Bears (s.entry e) c.handle) (hr : Leavable s c.handle) :
    (voice held s a b).clearingEffects e c move =
      voice held (f (holding (leftRinging s c.handle) e (some (inClearing s c)))) a b := by
  have written : Leavable (holding s e (some (inClearing s c))) c.handle := hr.writeEntry _
  have moved : leftRinging (f (holding s e (some (inClearing s c)))) c.handle =
      f (holding (leftRinging s c.handle) e (some (inClearing s c))) :=
    calc leftRinging (f (holding s e (some (inClearing s c)))) c.handle
        = f (leftRinging (s.writeEntry e (some (inClearing s c))) c.handle) := leftRinging_framed (frame _) written
      _ = _ := congrArg f (leftRinging_setEntry he (bears_some rfl _) hr)
  rw [← moved]
  exact clearingEffects_leaves held a b hm (leaves_leftRinging ((frame _).leavable written))

theorem stopInjector_quarantine (s : State) (p : PortNo) :
    (s.stopInjector p).quarantine p = porting s p (quarantined { s.port p with injector := .idle }) := by
  rw [State.quarantine_eq, show (s.stopInjector p).port p = { s.port p with injector := .idle } from port_porting s p _]
  exact porting_porting s p _ _

theorem callLineLost_eq (u : State) (h : u.params = s.params) :
    porting (holding (u.countFault.withdraw c.port) e (some (inClearing (s.countFault.withdraw c.port) c))) c.port
      (quarantined { u.port c.port with injector := .idle }) = callLineLost u e c := by
  unfold callLineLost inClearing
  rw [h]
  rfl

/-- A line record found damaged under a call outside CLEARING whose entry reads good. -/
theorem lineActions_clears (hc : Holds s p e c) (hp : c.phase ≠ .clearing) (hr : Leavable s c.handle) :
    (voice held s a []).lineActions p =
      voice held (callLineLost (leftRinging s c.handle) e c) (a ++ [.clear c.handle .storeFault c.meterCount])
        [.integrity .line p.val c.handle] := by
  obtain ⟨call, good⟩ := hc
  obtain rfl := call_port call
  have frame : Framed s fun x => x.countFault.withdraw c.port := ⟨⟨rfl, rfl, rfl⟩, fun _ => rfl⟩
  have params : (leftRinging s c.handle).params = s.params := by rw [leftRinging_onto hr]; rfl
  have effects (a b : List Message) :
      (voice true (s.countFault.withdraw c.port) a b).clearingEffects e c (fun v => v.quarantine c.port) =
        voice true (callLineLost (leftRinging s c.handle) e c) a b := by
    rw [clearingEffects_voice (s := s.countFault.withdraw c.port) true a b (move := fun v => v.quarantine c.port)
      (f := fun x => porting x c.port (quarantined { x.port c.port with injector := .idle }))
      (fun x => stopInjector_quarantine _ _) (fun _ => ⟨⟨rfl, rfl, rfl⟩, fun _ => rfl⟩)
      (bears_of_eq (findBinding_found call).1) (frame.leavable hr), leftRinging_framed frame hr]
    generalize leftRinging s c.handle = u at params ⊢
    exact congrArg (voice true · a b) (callLineLost_eq u params)
  unfold State.lineActions
  dsimp only
  rw [show ((voice held s a []).countFault.withdraw c.port).call c.port = some (e, c) from call]
  dsimp only
  rw [if_neg hp, if_neg (by rw [show (((voice held s a []).countFault.withdraw c.port).entry e).damaged = false from good]; decide)]
  rw [show (voice held s a []).countFault.withdraw c.port = voice held (s.countFault.withdraw c.port) a [] from rfl,
    voice_sendNow]
  refine (voice_reporting held _ _ _ (more := []) fun a b => ?_).trans (by rw [List.append_nil, List.nil_append])
  rw [List.append_nil]
  exact effects a b

/-- A line record found damaged under a call outside CLEARING whose entry is damaged too: the binding failure actions take
step 3, and the port goes to QUARANTINE from where they leave it (R182). -/
theorem lineActions_entry (hc : s.call p = some (e, c)) (hp : c.phase ≠ .clearing) (hd : (s.entry e).damaged = true) :
    (voice held s a []).lineActions p =
      ((voice held (s.countFault.withdraw p) a []).bindingActions (fun h => [.integrity .line p.val h]) e).quarantine p := by
  unfold State.lineActions
  dsimp only
  rw [show ((voice held s a []).countFault.withdraw p).call p = some (e, c) from hc]
  dsimp only
  rw [if_neg hp, if_pos (by exact hd)]
  rfl

end

end Sys2Proof.Machine
end

section
/-!
PROOFS. Answers.lean: messages that find a damaged line record (O13, and the cases of O16, O17, O24, O25 and O50), and the
messages that name a handle (O22 to O25).
-/
namespace Sys2Proof.Machine

open Sys2Proof.Safety

variable {s t : State} {p : PortNo} {e : EntryNo} {b : Binding} {h : Nat}

/-! ## A message taken, and its answers -/

/-- A message whose rule leaves `f` of the state it found, and these messages. -/
theorem voice_answered (hl : Listening s) (hq : Quiet s) (f : State → State) {x y : List Message}
    (hf : voice false (f { s with assembly := [] }) x y = f (voice false { s with assembly := [] } x y)) :
    voice false (f { s with assembly := [] }) x y = f (answering s (x ++ y)) :=
  hf.trans (congrArg f (voice_answering x y hl.1 hq))

theorem ack_voice (x y : List Message) (tag : Nat) (c : Code) :
    (voice true s x y).ack tag c = voice false s (x ++ .ack tag c :: y) [] := voice_reply x y _

theorem quiet_voice : Quiet (voice false s x y) := ⟨rfl, rfl⟩

theorem ack_release (x y : List Message) (tag : Nat) (c : Code) :
    ((voice true s x y).ack tag c).release = voice false s (x ++ .ack tag c :: y) [] := by
  rw [ack_voice, release_quiet quiet_voice]

/-- The line record is found damaged, and no live call is touched: STORE_FAULT leaves, and the report after it. -/
theorem lineFault_idle (hl : Listening s) (hq : Quiet s) (hc : ∀ e b, s.call p = some (e, b) → b.phase = .clearing)
    (tag : Nat) :
    ((s.taken.lineActions p).ack tag .storeFault).release =
      quarantining (answering s [.ack tag .storeFault, .integrity .line p.val 0]) p := by
  rw [taken_voice hq, lineActions_idle (s := { s with assembly := [] }) true _ _ hc, ack_release]
  exact voice_answered hl hq (quarantining · p) rfl

theorem leftRinging_answering (hl : Listening s) (hq : Quiet s) {k : Nat} (hr : Leavable s k) (x : List Message) :
    leftRinging (answering s x) k = voice false (leftRinging { s with assembly := [] } k) x [] := by
  have said := voice_answering x [] hl.1 hq
  rw [List.append_nil] at said
  rw [← said]
  exact leftRinging_framed (s := { s with assembly := [] }) (f := fun u => voice false u x [])
    ⟨⟨rfl, rfl, rfl⟩, fun _ => rfl⟩ hr

/-- The line record of a live call is found damaged: its CLEAR leaves before STORE_FAULT, the report after it. -/
theorem lineFault_call (hl : Listening s) (hq : Quiet s) (hc : Holds s p e b) (hp : b.phase ≠ .clearing)
    (hr : Leavable s b.handle) (tag : Nat) :
    ((s.taken.lineActions p).ack tag .storeFault).release =
      callLineLost
        (leftRinging
          (answering s [.clear b.handle .storeFault b.meterCount, .ack tag .storeFault,
            .integrity .line p.val b.handle]) b.handle) e b := by
  rw [taken_voice hq, lineActions_clears (s := { s with assembly := [] }) true _ hc hp hr, ack_release,
    leftRinging_answering hl hq hr]
  rfl

/-! ## Reading a line -/

theorem readLine_damaged (hl : Listening s) {a : Address} (ha : s.resolve a = .port p)
    (hd : (s.line p).damaged = true) (hw : (s.line p).withdrawn = false) (tag : Nat) :
    exec (.readLine tag a) s = .next ((s.taken.lineActions p).ack tag .storeFault).release := by
  rw [exec_readLine, execReadLine, takeMessage_listening hl]
  simp only [taken_resolve, ha, taken_line, hd, hw, Bool.not_false, Bool.and_self, if_true]

theorem queryLine_damaged (hl : Listening s) {a : Address} (hc : a ≠ .cursor) (ha : s.resolve a = .port p)
    (hd : (s.line p).damaged = true) (hw : (s.line p).withdrawn = false) (tag : Nat) :
    exec (.queryLine tag a) s = .next ((s.taken.lineActions p).ack tag .storeFault).release := by
  rw [exec_queryLine, execQueryLine, takeMessage_listening hl]
  simp only [resolveNoCursor_eq hc, taken_resolve, ha, taken_line, hd, hw, Bool.not_false, Bool.and_self, if_true]

theorem clearing_of_none (hc : s.call p = none) : ∀ e b, s.call p = some (e, b) → b.phase = .clearing := by
  intro e b h
  rw [hc] at h
  cases h

/-- Settles O13: the two reads run the same failure actions and give the same answer. -/
theorem lineFailureIsHandled : Obligations.LineFailureIsHandled := by
  intro s tag a p hl hq ha hd hw hc
  refine ⟨_, readLine_damaged hl ha hd hw tag, fun na => queryLine_damaged hl na ha hd hw tag, ?_⟩
  exact lineFault_idle hl hq (clearing_of_none hc) tag

/-! ## Messages that name a handle -/

section
variable {tag : Nat} {take : EntryNo → Binding → State → State}

theorem withHandle_form {a : Address} (h : ∀ k, a ≠ .handle k) : s.withHandle tag a take = s.ack tag .badValue := by
  unfold State.withHandle
  split
  · exact absurd rfl (h _)
  · rfl

theorem withHandle_stale (hb : s.byHandle h = none) : s.withHandle tag (.handle h) take = s.ack tag .stale := by
  rw [State.withHandle, hb]

theorem withHandle_named (n : Named s h e b) : s.withHandle tag (.handle h) take = take e b s := by
  obtain ⟨found, good⟩ := n
  rw [State.withHandle, found]
  simp [good]

theorem withHandle_damaged (hb : s.byHandle h = some (e, b)) (hd : (s.entry e).damaged = true) :
    s.withHandle tag (.handle h) take = (s.bindingFailure e).ack tag .storeFault := by
  rw [State.withHandle, hb]
  simp [hd]

/-- A message that names a handle, as what its rule does with the call. -/
theorem takeHandle (hl : Listening s) (a : Address) :
    s.takeMessage (fun s => s.withHandle tag a take) = .next (s.taken.withHandle tag a take).release :=
  takeMessage_listening hl _

end

/-- The six messages that name a handle, each with the rule of a call that it names. -/
inductive Handled : (Nat → Address → Instr) → (Nat → EntryNo → Binding → State → State) → Prop
  | grant : Handled .grant fun tag e b s =>
      match b.phase with
      | .seizing =>
        ((b.early.getD []).map (Dialled.message b.handle)).foldl State.send
          (s.release.writeEntry e (some { b with phase := .dialling, tAccept := none, early := none }))
      | _ => s.ack tag .wrongPhase
  | deny : Handled .deny fun tag e b s =>
      match b.phase with
      | .seizing => s.release.retire e b
      | _ => s.ack tag .wrongPhase
  | answer : Handled .answer fun tag e b s =>
      match b.phase with
      | .dialling =>
        if (s.line b.port).damaged && !(s.line b.port).withdrawn then (s.lineActions b.port).ack tag .storeFault
        else
          s.release.writeEntry e
            (some { b with
              phase := .connected
              reversal := decide (b.direction = .orig) && (s.line b.port).reverse && !(s.line b.port).withdrawn })
      | _ => s.ack tag .wrongPhase
  | clear (c : Nat) : Handled (fun tag a => .clear tag a c) fun tag e b s =>
      match b.phase with
      | .clearing => s.release.retire e b
      | _ => (s.reply (.cleared tag b.handle b.meterCount)).retire e b
  | cleared : Handled .cleared fun tag e b s =>
      match b.phase with
      | .clearing => s.release.retire e b
      | _ => s.ack tag .wrongPhase
  | meter (n : Nat) : Handled (fun tag a => .meter tag a n) fun tag e b s =>
      if n < 1 ∨ 15 < n then s.ack tag .badValue
      else
        match b.phase with
        | .dialling => (s.writeEntry e (some { b with meterCount := satAdd countMax b.meterCount n })).meterPulses tag n e
            { b with meterCount := satAdd countMax b.meterCount n }
        | .connected => (s.writeEntry e (some { b with meterCount := satAdd countMax b.meterCount n })).meterPulses tag n e
            { b with meterCount := satAdd countMax b.meterCount n }
        | .clearing => s.release.writeEntry e (some { b with meterCount := satAdd countMax b.meterCount n })
        | _ => s.ack tag .wrongPhase

variable {i : Nat → Address → Instr} {take : Nat → EntryNo → Binding → State → State}

theorem Handled.exec_eq (m : Handled i take) (tag : Nat) (a : Address) (s : State) :
    exec (i tag a) s = s.takeMessage fun s => s.withHandle tag a (take tag) := by
  cases m <;> rfl

theorem Handled.form (m : Handled i take) (hl : Listening s) (hq : Quiet s) (tag : Nat) {a : Address}
    (ha : ∀ k, a ≠ .handle k) : exec (i tag a) s = .next (answering s [.ack tag .badValue]) := by
  rw [m.exec_eq, takeHandle hl, withHandle_form ha, ack_taken hl hq]

theorem Handled.stale (m : Handled i take) (hl : Listening s) (hq : Quiet s) (tag : Nat) (hb : s.byHandle h = none) :
    exec (i tag (.handle h)) s = .next (answering s [.ack tag .stale]) := by
  rw [m.exec_eq, takeHandle hl, withHandle_stale (s := s.taken) hb, ack_taken hl hq]

theorem Handled.named (m : Handled i take) (hl : Listening s) (tag : Nat) (n : Named s h e b) :
    exec (i tag (.handle h)) s = .next (take tag e b s.taken).release := by
  rw [m.exec_eq, takeHandle hl, withHandle_named (s := s.taken) n]

/-- The rule refuses the call it is given. -/
theorem Handled.refuses (m : Handled i take) (hl : Listening s) (hq : Quiet s) (tag : Nat) (n : Named s h e b) {c : Code}
    (ht : take tag e b s.taken = s.taken.ack tag c) : exec (i tag (.handle h)) s = .next (answering s [.ack tag c]) := by
  rw [m.named hl tag n, ht, ack_taken hl hq]

/-- Settles O22: the checks of R70 are one for all six messages, and each then refuses by its own table of phases. -/
theorem handleChecks : Obligations.HandleChecks := by
  refine fun s tag a hl hq => ⟨fun ha => ?_, fun h hb => ?_, fun h e b n => ⟨fun hp => ?_, fun hp => ?_, fun hp => ?_,
    fun k hk => ?_, fun k lo hi hp => ?_⟩⟩
  · exact ⟨Handled.grant.form hl hq tag ha, Handled.deny.form hl hq tag ha, Handled.answer.form hl hq tag ha,
      fun c => (Handled.clear c).form hl hq tag ha, Handled.cleared.form hl hq tag ha,
      fun k => (Handled.meter k).form hl hq tag ha⟩
  · exact ⟨Handled.grant.stale hl hq tag hb, Handled.deny.stale hl hq tag hb, Handled.answer.stale hl hq tag hb,
      fun c => (Handled.clear c).stale hl hq tag hb, Handled.cleared.stale hl hq tag hb,
      fun k => (Handled.meter k).stale hl hq tag hb⟩
  · constructor
    · refine Handled.grant.refuses hl hq tag n ?_
      split
      · exact absurd ‹_› hp
      · rfl
    · refine Handled.deny.refuses hl hq tag n ?_
      split
      · exact absurd ‹_› hp
      · rfl
  · refine Handled.answer.refuses hl hq tag n ?_
    split
    · exact absurd ‹_› hp
    · rfl
  · refine Handled.cleared.refuses hl hq tag n ?_
    split
    · exact absurd ‹_› hp
    · rfl
  · exact (Handled.meter k).refuses hl hq tag n (if_pos hk)
  · refine (Handled.meter k).refuses hl hq tag n ?_
    rw [if_neg (by omega)]
    split
    case h_4 => rfl
    all_goals simp_all

/-- Settles O23: the messages of the early list leave one by one, from a state that holds nothing back. -/
theorem grantConnects : Obligations.GrantConnects := by
  intro s tag h e b hl hq n hp
  rw [Handled.grant.named hl tag n]
  simp only [hp, taken_release hq]
  have sent : ((b.early.getD []).map (Dialled.message b.handle)).foldl State.send
      ((answering s []).writeEntry e (some { b with phase := .dialling, tAccept := none, early := none })) =
      holding (answering s ((b.early.getD []).map (Dialled.message b.handle))) e
        (some { b with phase := .dialling, tAccept := none, early := none }) := by
    rw [sends_quiet (by exact hq.2)]
    unfold telling
    rw [if_pos (by exact hl.1)]
    simp [answering, holding, State.writeEntry, State.setEntry]
  have told : Dialled.message b.handle = fun
      | .digit d => Message.digit b.handle d
      | .flash => .flash b.handle := by
    funext d
    cases d <;> rfl
  rw [sent, told]
  exact congrArg Host.Outcome.next (release_quiet hq)

/-- Settles O24: the read of the record decides between the answer and the failure actions. -/
theorem answerConnects : Obligations.AnswerConnects := by
  refine fun s tag h e b hl hq n hp => ⟨fun hr => ?_, fun _ hd hw hc hn => ?_⟩
  · rw [Handled.answer.named hl tag n]
    simp only [hp, taken_line, not_placementFault hr, Bool.false_eq_true, if_false, taken_release hq]
    exact congrArg Host.Outcome.next (release_quiet hq)
  · rw [Handled.answer.named hl tag n]
    simp only [hp, taken_line, hd, hw, Bool.not_false, Bool.and_self, if_true]
    rw [lineFault_call hl hq hc (by simp [hp]) (.inl hn), leftRinging_none (s := answering s _) hn]

/-! ## Meter pulses -/

theorem mayPulse_iff {a : Phase} : s.mayPulse p a = true ↔
    (s.port p).hook = .off ∧ (s.port p).sup ≠ .test ∧ (a = .dialling ∨ a = .connected) := by
  simp [State.mayPulse, and_assoc]

theorem startTrain_starts (hi : (s.port b.port).injector = .idle) (hp : 1 ≤ b.pendingPulses)
    (hm : s.mayPulse b.port b.phase = true) :
    s.startTrain e b = porting (holding s e (some { b with pendingPulses := b.pendingPulses - 1 })) b.port
      { s.port b.port with injector := .pulse 120 } := by
  unfold State.startTrain
  rw [hi]
  exact if_pos ⟨hp, hm⟩

theorem startTrain_rests
    (h : (s.port b.port).injector ≠ .idle ∨ b.pendingPulses = 0 ∨ s.mayPulse b.port b.phase = false) :
    s.startTrain e b = s := by
  unfold State.startTrain
  split
  · next hi =>
    rcases h with h | h | h
    · exact absurd hi h
    · exact if_neg (by omega)
    · exact if_neg (by simp [h])
  · rfl

/-- A search that found this binding finds what is written over it. -/
theorem findBinding_writeEntry {test : Binding → Bool} {d : Binding} (h : s.findBinding test = some (e, b))
    (hd : test d = true) : (s.writeEntry e (some d)).findBinding test = some (e, d) := by
  obtain ⟨before, f, after, all, hit, miss⟩ := List.findSome?_eq_some_iff.mp h
  have here : f = e := by
    split at hit
    · split at hit
      · cases hit
        rfl
      · cases hit
    · cases hit
  subst here
  refine List.findSome?_eq_some_iff.mpr ⟨before, f, after, all, ?_, fun g hg => ?_⟩
  · rw [entry_writeEntry_at, if_pos rfl]
    exact if_pos hd
  · have hne : g ≠ f := by
      rintro rfl
      rw [miss g hg] at hit
      cases hit
    rw [entry_writeEntry_at, if_neg hne]
    exact miss g hg

theorem holding_holding (s : State) (e : EntryNo) (x y : Option Binding) :
    holding (holding s e x) e y = holding s e y := by
  unfold holding
  dsimp only
  rw [Vector.set_set]

theorem callLineLost_holding (s : State) (e : EntryNo) (x : Option Binding) (b : Binding) :
    callLineLost (holding s e x) e b = callLineLost s e b := by
  have set : (holding s e x).entries.set e { binding := some (inClearing s b), damaged := false } =
      s.entries.set e { binding := some (inClearing s b), damaged := false } :=
    Vector.set_set _ _
  unfold callLineLost
  rw [← set]
  rfl

theorem meter_clearing (hl : Listening s) (hq : Quiet s) {tag n : Nat} (named : Named s h e b)
    (range : ¬ (n < 1 ∨ 15 < n)) (hp : b.phase = .clearing) :
    exec (.meter tag (.handle h) n) s =
      .next (holding (answering s []) e (some { b with meterCount := min (b.meterCount + n) 65535 })) := by
  rw [(Handled.meter n).named hl tag named]
  simp only [if_neg range, hp, taken_release hq]
  exact congrArg Host.Outcome.next (release_quiet hq)

/-- In a call that dials or is connected, the raised count is written, and the record decides about pulses (R139). -/
theorem meter_speaking (hl : Listening s) {tag n : Nat} (named : Named s h e b) (range : ¬ (n < 1 ∨ 15 < n))
    (hp : b.phase = .dialling ∨ b.phase = .connected) {d : Binding}
    (hd : d = { b with meterCount := min (b.meterCount + n) 65535 }) :
    exec (.meter tag (.handle h) n) s = .next ((holding s e (some d)).taken.meterPulses tag n e d).release := by
  subst hd
  rw [(Handled.meter n).named hl tag named]
  simp only [if_neg range]
  rcases hp with hp | hp <;> rw [hp] <;> rfl

theorem meterPulses_fault (tag n : Nat) (hd : (s.line b.port).damaged = true) (hw : (s.line b.port).withdrawn = false) :
    s.meterPulses tag n e b = (s.lineActions b.port).ack tag .storeFault := by
  simp [State.meterPulses, hd, hw]

theorem meterPulses_none (tag n : Nat) (hr : Reads s b.port)
    (h : (s.line b.port).withdrawn = true ∨ (s.line b.port).meterPulse = false) :
    s.meterPulses tag n e b = s.release := by
  unfold State.meterPulses
  simp only [not_placementFault hr, Bool.false_eq_true, if_false]
  rcases h with h | h <;> simp [h]

theorem meterPulses_some (tag n : Nat) (hr : Reads s b.port) (hw : (s.line b.port).withdrawn = false)
    (hm : (s.line b.port).meterPulse = true) :
    s.meterPulses tag n e b =
      (s.release.writeEntry e (some { b with pendingPulses := min (b.pendingPulses + n) 255 })).startTrain e
        { b with pendingPulses := min (b.pendingPulses + n) 255 } := by
  unfold State.meterPulses
  dsimp only
  rw [not_placementFault hr, if_neg (by decide), hw, hm]
  rfl

/-- Settles O25: the raised count is written first, and what follows is said of the call so written. -/
theorem meterCounts : Obligations.MeterCounts := by
  intro s tag h n e b hl hq named lo hi
  have range : ¬ (n < 1 ∨ 15 < n) := by omega
  refine ⟨meter_clearing hl hq named range, fun hp hd hw hc hn d he => ?_, fun hp hr => ⟨fun quiet => ?_,
    fun hw hm => ⟨fun still => ?_, fun idle off out => ?_⟩⟩⟩
  · rw [meter_speaking hl named range hp he,
      meterPulses_fault (b := d) tag n (by rw [he]; exact hd) (by rw [he]; exact hw)]
    have call : Holds (holding s e (some d)) d.port e d :=
      ⟨findBinding_writeEntry (by rw [he]; exact hc.1) (by simp),
        by rw [show (holding s e (some d)).entry e = _ from entry_writeEntry_at s e e _, if_pos rfl]⟩
    have same : d.handle = b.handle ∧ d.port = b.port ∧ d.phase = b.phase := by rw [he]; exact ⟨rfl, rfl, rfl⟩
    obtain ⟨handle, port, phase⟩ := same
    have alone : NotRinging s d.handle := by rw [handle]; exact hn
    rw [lineFault_call (s := holding s e (some d)) hl hq call (by rcases hp with hp | hp <;> simp [phase, hp]) (.inl alone),
      leftRinging_none (s := answering (holding s e (some d)) _) alone, handle, port]
    exact congrArg Host.Outcome.next (callLineLost_holding (answering s _) _ _ _)
  all_goals
    obtain ⟨d, he⟩ : ∃ d : Binding, d = { b with meterCount := min (b.meterCount + n) 65535 } := ⟨_, rfl⟩
    have hr : Reads s d.port := by rw [he]; exact hr
    rw [meter_speaking hl named range hp he]
  · rw [meterPulses_none (s := (holding s e (some d)).taken) (b := d) tag n hr (by rw [he]; exact quiet),
      taken_release (s := holding s e (some d)) hq, he]
    exact congrArg Host.Outcome.next (release_quiet hq)
  all_goals
    rw [meterPulses_some (s := (holding s e (some d)).taken) (b := d) tag n hr (by rw [he]; exact hw) (by rw [he]; exact hm),
      taken_release (s := holding s e (some d)) hq,
      show (answering (holding s e (some d)) []).writeEntry e _ = holding (answering s []) e _ from
        holding_holding (answering s []) e _ _]
  · rw [startTrain_rests, he]
    · exact congrArg Host.Outcome.next (release_quiet hq)
    · rw [he, ← Bool.not_eq_true, mayPulse_iff]
      rcases still with h | h | h
      · exact .inl h
      · exact .inr (.inr fun x => by rw [show (s.port b.port).hook = .off from x.1] at h; cases h)
      · exact .inr (.inr fun x => x.2.1 h)
  · rw [startTrain_starts, holding_holding, he]
    · exact congrArg Host.Outcome.next (release_quiet hq)
    · rw [he]; exact idle
    · show 1 ≤ min _ _
      omega
    · rw [he, mayPulse_iff]
      exact ⟨off, out, hp⟩

/-- Settles O47: the end of a gap is at rest, and the next pulse starts from there. -/
theorem meterPulsesRun : Obligations.MeterPulsesRun := by
  refine fun s p left => ⟨fun hi => ?_, fun hi => ⟨fun none => ?_, fun e b hc => ⟨fun pending off out phase => ?_,
    fun rests => ?_⟩⟩⟩
  · show execPulseEnd p s = _
    rw [execPulseEnd, hi]
    rfl
  all_goals
    show execGapEnd p s = _
    rw [execGapEnd, hi]
    dsimp only
  · rw [none]
    rfl
  all_goals
    obtain ⟨call, good⟩ := hc
    obtain rfl := call_port call
    rw [call]
    dsimp only
    unfold State.endGap
    dsimp only
  · have idle : ((s.setPort b.port { s.port b.port with injector := .idle }).port b.port) =
        { s.port b.port with injector := .idle } := port_porting s b.port _
    rw [if_pos ⟨pending, mayPulse_iff.mpr ⟨off, out, phase⟩⟩, if_neg (by simp [good]), startTrain_starts (by rw [idle]) pending
      (mayPulse_iff.mpr (by rw [idle]; exact ⟨off, out, phase⟩)), idle]
    exact congrArg Host.Outcome.next (porting_porting (holding s e _) b.port _ _)
  · rw [if_neg (fun x => ?_)]
    · rfl
    · obtain ⟨pending, may⟩ := x
      obtain ⟨off, out, phase⟩ := mayPulse_iff.mp may
      rcases rests with h | h | h | h
      · omega
      · rw [off] at h
        cases h
      · exact out h
      · exact phase.elim h.1 h.2

end Sys2Proof.Machine
end

section
/-!
PROOFS. Writing.lean: WRITE_LINE (O15, O16).
-/
namespace Sys2Proof.Machine

open Sys2Proof.Safety

variable {s : State} {p : PortNo} {a : Address} {w : LineWrite} {tag : Nat}

/-- A reply after an update that neither reads nor writes the way out. -/
theorem ack_after (hl : Listening s) (hq : Quiet s) (f : State → State) (tag : Nat) (c : Code)
    (hf : ∀ held x y, f (voice held { s with assembly := [] } x y) = voice held (f { s with assembly := [] }) x y) :
    (f s.taken).ack tag c = f (answering s [.ack tag c]) := by
  rw [taken_voice hq, hf, ack_voice, ← hf]
  exact congrArg f (voice_answering _ _ hl.1 hq)

/-! ## The record and the port of a write -/

theorem mark_place (s : State) (p : PortNo) (m : Bool) (st : SupState) :
    (s.mark p m).place p st = porting s p ({ s.port p with parkPending := m }.place st) := by
  have marked : (s.mark p m).port p = { s.port p with parkPending := m } := port_porting s p _
  unfold State.place
  rw [marked]
  exact porting_porting s p _ _

/-- The port with its park-pending marker written (R44). -/
def marked (q : Port) (m : Bool) : Port := { q with parkPending := m }

/-- The port that a write puts in service, by the state it finds (R11). -/
def placedWritten (q : Port) (parkable : Bool) : Port :=
  match q.sup, q.hook with
  | .test, _ => q
  | .lockout, _ => marked q parkable
  | .quarantine, .off => (marked q parkable).place .lockout
  | _, _ => (marked q false).place (if parkable then .parked else .idle)

theorem placeWritten_eq (s : State) (p : PortNo) :
    s.placeWritten p = porting s p (placedWritten (s.port p) (s.parkable p)) := by
  have parked (st : SupState) : (s.mark p (s.parkable p)).place p st = porting s p ((marked (s.port p) (s.parkable p)).place st) :=
    mark_place s p _ _
  have freed (st : SupState) : (s.mark p false).place p st = porting s p ((marked (s.port p) false).place st) :=
    mark_place s p _ _
  unfold State.placeWritten placedWritten
  dsimp only
  cases (s.port p).sup with
  | test => exact (setPort_self s p).symm
  | lockout => rfl
  | quarantine =>
    cases (s.port p).hook with
    | off => exact parked _
    | on => exact freed _
  | _ => exact freed _

theorem writeService_eq (s : State) (p : PortNo) (st : LineStatus) (c : LineClass) (w : LineWrite) :
    s.writeService p st c w =
      { s with
        lines := s.lines.set p ((s.line p).rewritten st c w)
        keyIndex := s.keyIndex.set p (some w.key)
        ports := s.ports.set p
          (placedWritten (s.port p) (decide (s.sense.power = .survival) && decide (c = .ordinary) && !w.keep)) } := by
  have written : ((s.writeLine p ((s.line p).rewritten st c w)).setIndex p (some w.key)).line p =
      (s.line p).rewritten st c w := by
    simp [State.writeLine, State.setLine, State.setIndex, State.line, LineRecord.rewritten]
  have parkable : ((s.writeLine p ((s.line p).rewritten st c w)).setIndex p (some w.key)).parkable p =
      (decide (s.sense.power = .survival) && decide (c = .ordinary) && !w.keep) := by
    unfold State.parkable
    rw [written]
    exact (Bool.and_assoc _ _ _).symm
  unfold State.writeService
  rw [placeWritten_eq, parkable]
  rfl

/-- A VACANT record in use is written again for meter-reset alone (R12). -/
theorem writeVacant_already (hs : (s.line p).status = .vacant) (hw : (s.line p).withdrawn = false) (w : LineWrite) :
    s.writeVacant p w = if w.meterReset then s.writeLine p { s.line p with total := 0 } else s := by
  unfold State.writeVacant
  rw [show (if (s.line p).status = .vacant ∧ (s.line p).withdrawn = false then s else s.ceaseNow p) = s from
    if_pos ⟨hs, hw⟩]

/-- Any other record is ceased, its total kept or set to 0 (R12). -/
theorem writeVacant_ceases (h : ¬ ((s.line p).status = .vacant ∧ (s.line p).withdrawn = false)) (w : LineWrite) :
    s.writeVacant p w = ceased s p (if w.meterReset then 0 else (s.line p).total) := by
  unfold State.writeVacant
  dsimp only
  rw [if_neg h, ceaseNow_eq]
  cases w.meterReset with
  | false => rfl
  | true =>
    have record : (ceased s p (s.line p).total).line p = { LineRecord.initial with total := (s.line p).total } := by
      simp [ceased, State.line]
    have set : (ceased s p (s.line p).total).lines.set p { LineRecord.initial with total := 0 } =
        s.lines.set p { LineRecord.initial with total := 0 } := Vector.set_set _ _
    rw [if_pos rfl, if_pos rfl, record]
    unfold ceased
    rw [← set]
    rfl

theorem writeVacant_voice (held : Bool) (s : State) (p : PortNo) (w : LineWrite) (x y : List Message) :
    (voice held s x y).writeVacant p w = voice held (s.writeVacant p w) x y := by
  by_cases h : (s.line p).status = .vacant ∧ (s.line p).withdrawn = false
  · rw [writeVacant_already h.1 h.2, writeVacant_already (s := voice held s x y) h.1 h.2]
    cases w.meterReset <;> rfl
  · rw [writeVacant_ceases h, writeVacant_ceases (s := voice held s x y) h]
    rfl

theorem writeVacant_out (s : State) (p : PortNo) (w : LineWrite) : (s.writeVacant p w).out = s.out := by
  by_cases h : (s.line p).status = .vacant ∧ (s.line p).withdrawn = false
  · rw [writeVacant_already h.1 h.2]
    cases w.meterReset <;> rfl
  · rw [writeVacant_ceases h]
    rfl

/-! ## The request -/

theorem exec_writeLine (tag : Nat) (a : Address) (w : LineWrite) (s : State) :
    exec (.writeLine tag a w) s = execWriteLine tag a w s := rfl

section
variable (hl : Listening s) (hi : s.engine = .idle) (ha : a = .port p.val ∨ (a = .cursor ∧ s.cursor = p))

include ha in
theorem resolveForWrite_addressed : s.resolveForWrite a = .port p := by
  rcases ha with rfl | ⟨rfl, rfl⟩
  · exact congrArg Resolved.ofOption (dif_pos p.isLt)
  · rfl

include hl hi ha

theorem writeLine_badValue (hq : Quiet s) (tag : Nat) (h : 4 ≤ w.status ∨ 2 ≤ w.cls) :
    exec (.writeLine tag a w) s = .next (answering s [.ack tag .badValue]) := by
  have unnamed : writtenStatus w.status = none ∨ classOfOctet w.cls = none := by
    refine h.imp (fun h => ?_) fun h => ?_
    · unfold writtenStatus
      split <;> first | omega | rfl
    · unfold classOfOctet
      split <;> first | omega | rfl
  rw [exec_writeLine, execWriteLine, takeMessage_provision_idle hl hi]
  simp only [taken_resolveForWrite, resolveForWrite_addressed ha]
  split
  · next st c hs hc => rcases unnamed with h | h <;> simp_all
  · rw [ack_taken hl hq]

omit hl hi ha in
theorem not_engaged (free : s.call p = none) (idle : (s.port p).sup ≠ .waitSlot) :
    ¬ ((s.taken.call p).isSome = true ∨ (s.taken.port p).sup = .waitSlot) := by
  rintro (h | h)
  · rw [taken_call, free] at h
    cases h
  · exact idle h

variable {st : LineStatus} {c : LineClass} (hs : writtenStatus w.status = some st) (hc : classOfOctet w.cls = some c)
include hs hc

theorem writeLine_damaged (tag : Nat) (hd : (s.line p).damaged = true) (hw : (s.line p).withdrawn = false) :
    exec (.writeLine tag a w) s = .next ((s.taken.lineActions p).ack tag .storeFault).release := by
  rw [exec_writeLine, execWriteLine, takeMessage_provision_idle hl hi]
  simp only [taken_resolveForWrite, resolveForWrite_addressed ha, hs, hc, taken_line, hd, hw, Bool.not_false,
    Bool.and_self, if_true]

theorem writeLine_reads (tag : Nat) (hr : Reads s p) :
    exec (.writeLine tag a w) s = .next (s.taken.writeChecked tag a p st c w).release := by
  rw [exec_writeLine, execWriteLine, takeMessage_provision_idle hl hi]
  simp only [taken_resolveForWrite, resolveForWrite_addressed ha, hs, hc, taken_line, not_placementFault hr,
    Bool.false_eq_true, if_false]

theorem writeLine_busy (hq : Quiet s) (tag : Nat) (hr : Reads s p) (h : s.call p ≠ none ∨ (s.port p).sup = .waitSlot) :
    exec (.writeLine tag a w) s = .next (answering s [.ack tag .lineBusy]) := by
  rw [writeLine_reads hl hi ha hs hc tag hr]
  unfold State.writeChecked
  rw [if_pos (by exact h.imp_left Option.isSome_iff_ne_none.mpr), ack_taken hl hq]

variable (hr : Reads s p) (free : s.call p = none) (idle : (s.port p).sup ≠ .waitSlot)
include hr free idle

theorem writeLine_service (hq : Quiet s) (tag : Nat) (hv : st ≠ .vacant) (hk : ∀ q, q ≠ p → s.indexKey q ≠ some w.key) :
    exec (.writeLine tag a w) s =
      .next ((answering s [.ack tag (if writeClamps w then .clamped else .ok)]).writeService p st c w |>.moveCursor a
        s.advance.write) := by
  have written : (s.taken.writeService p st c w).ack tag (if writeClamps w then .clamped else .ok) =
      (answering s [.ack tag (if writeClamps w then .clamped else .ok)]).writeService p st c w :=
    ack_after hl hq (·.writeService p st c w) tag _ fun held x y => by rw [writeService_eq, writeService_eq]; rfl
  rw [writeLine_reads hl hi ha hs hc tag hr]
  unfold State.writeChecked
  rw [if_neg (not_engaged free idle), if_neg hv, written]
  refine congrArg Host.Outcome.next ?_
  have rests : Quiet (((answering s [.ack tag (if writeClamps w then .clamped else .ok)]).writeService p st c w).moveCursor
      a s.advance.write) := by
    rw [writeService_eq, moveCursor_eq]
    exact hq
  split
  · next q found =>
    have key := List.find?_some found
    have : q = p := Decidable.byContradiction fun hne => hk q hne (of_decide_eq_true key)
    rw [if_pos this]
    exact release_quiet rests
  · exact release_quiet rests

theorem writeLine_duplicate (hq : Quiet s) (tag : Nat) (hv : st ≠ .vacant) {q : PortNo} (hne : q ≠ p)
    (hk : ∀ r, s.indexKey r = some w.key ↔ r = q) :
    exec (.writeLine tag a w) s = .next (answering s [.ack tag .duplicateKey]) := by
  rw [writeLine_reads hl hi ha hs hc tag hr]
  unfold State.writeChecked
  rw [if_neg (not_engaged free idle), if_neg hv, taken_portOfKey,
    portOfKey_found hk]
  dsimp only
  rw [if_neg hne, ack_taken hl hq]

theorem writeLine_vacant (hq : Quiet s) (tag : Nat) (hv : st = .vacant) :
    exec (.writeLine tag a w) s =
      .next ((answering s [.ack tag .ok]).writeVacant p w |>.moveCursor a s.advance.write) := by
  have vacated : (s.taken.writeVacant p w).ack tag .ok = (answering s [.ack tag .ok]).writeVacant p w :=
    ack_after hl hq (·.writeVacant p w) tag _ fun held x y => writeVacant_voice held _ p w x y
  rw [writeLine_reads hl hi ha hs hc tag hr]
  unfold State.writeChecked
  rw [if_neg (not_engaged free idle), if_pos hv, vacated]
  refine congrArg Host.Outcome.next (release_quiet ?_)
  rw [moveCursor_eq]
  exact writeVacant_out (answering s _) p w ▸ hq

end

/-- Settles O15. -/
theorem writeLinePutsInService : Obligations.WriteLinePutsInService := by
  intro s tag a p w st c hl hq hi ha hst hcls hr free idle _ hk
  have named : writtenStatus w.status = some st ∧ st ≠ .vacant := by
    simp only [List.mem_cons, Prod.mk.injEq, List.not_mem_nil, or_false] at hst
    rcases hst with ⟨h, rfl⟩ | ⟨h, rfl⟩ | ⟨h, rfl⟩ <;> exact ⟨by rw [h]; rfl, nofun⟩
  have cls : classOfOctet w.cls = some c := by
    simp only [List.mem_cons, Prod.mk.injEq, List.not_mem_nil, or_false] at hcls
    rcases hcls with ⟨h, rfl⟩ | ⟨h, rfl⟩ <;> rw [h] <;> rfl
  have clamps : (if writeClamps w then Code.clamped else .ok) =
      if 1 ≤ w.load ∧ w.load ≤ 40 ∧ w.cadence ≤ 3 then .ok else .clamped := by
    have : writeClamps w = true ↔ ¬ (1 ≤ w.load ∧ w.load ≤ 40 ∧ w.cadence ≤ 3) := by
      simp only [writeClamps, Bool.or_eq_true, decide_eq_true_eq, ne_eq, clamp_eq_self_iff (show 1 ≤ 40 by decide)]
      omega
    simp only [this]
    split <;> simp_all
  rw [writeLine_service hl hi ha named.1 cls hr free idle hq tag named.2 hk, clamps, moveCursor_eq, writeService_eq]
  refine congrArg Host.Outcome.next ?_
  rfl

theorem writtenStatus_some : ∀ {n : Nat}, n ≤ 3 → ∃ st, writtenStatus n = some st ∧ (st = .vacant ↔ n = 0)
  | 0, _ => ⟨_, rfl, by simp⟩
  | 1, _ => ⟨_, rfl, by simp⟩
  | 2, _ => ⟨_, rfl, by simp⟩
  | 3, _ => ⟨_, rfl, by simp⟩
  | _ + 4, h => by omega

theorem classOfOctet_some : ∀ {n : Nat}, n ≤ 1 → ∃ c, classOfOctet n = some c
  | 0, _ => ⟨_, rfl⟩
  | 1, _ => ⟨_, rfl⟩
  | _ + 2, h => by omega

/-- A good record in use stays so when it is written. -/
theorem writeLine_good {r : LineRecord} (hd : r.damaged = false) (hw : r.withdrawn = false) (s : State) (p : PortNo) :
    s.writeLine p r = s.setLine p r := by
  obtain ⟨st, k, c, l, cad, rev, mp, keep, total, damaged, withdrawn⟩ := r
  subst hd hw
  rfl

/-- Settles O16: the checks in their order, and then the write of VACANT by the record it finds. -/
theorem writeLineRefusesOrVacates : Obligations.WriteLineRefusesOrVacates := by
  intro s tag a p w hl hq hi ha
  refine ⟨writeLine_badValue hl hi ha hq tag, fun hs hc hd hw => ?_, fun hs hc hr busy => ?_,
    fun q h1 hs hc hr free idle hne hk => ?_, fun hs hc hr free idle next hnext => ?_⟩
  · obtain ⟨st, status, -⟩ := writtenStatus_some hs
    obtain ⟨c, cls⟩ := classOfOctet_some hc
    have damaged := writeLine_damaged hl hi ha status cls tag hd hw
    have same : s.resolve (.port p.val) = .port p := congrArg Resolved.ofOption (dif_pos p.isLt)
    refine ⟨damaged.trans (readLine_damaged hl same hd hw tag).symm, fun free => ?_⟩
    rw [damaged, lineFault_idle hl hq (clearing_of_none free)]
  · obtain ⟨st, status, -⟩ := writtenStatus_some hs
    obtain ⟨c, cls⟩ := classOfOctet_some hc
    exact writeLine_busy hl hi ha status cls hq tag hr busy
  · obtain ⟨st, status, vacant⟩ := writtenStatus_some hs
    obtain ⟨c, cls⟩ := classOfOctet_some hc
    exact writeLine_duplicate hl hi ha status cls hr free idle hq tag (fun h => by have := vacant.mp h; omega) hne hk
  · obtain ⟨c, cls⟩ := classOfOctet_some hc
    have written := writeLine_vacant (w := w) hl hi ha (st := .vacant) (by rw [hs]; rfl) cls hr free idle hq tag rfl
    subst hnext
    refine ⟨fun other => ?_, fun vacant inUse => ?_⟩
    · have ceases : ¬ ((s.line p).status = .vacant ∧ (s.line p).withdrawn = false) := by
        rintro ⟨h1, h2⟩
        exact other.elim (fun h => h h1) fun h => by rw [h2] at h; cases h
      rw [written, writeVacant_ceases (s := answering s _) ceases, moveCursor_eq]
      rfl
    · have good : (s.line p).damaged = false := hr.resolve_left (by simp [inUse])
      rw [written, writeVacant_already (s := answering s _) vacant inUse, moveCursor_eq]
      cases w.meterReset with
      | false => rfl
      | true =>
        rw [if_pos rfl, writeLine_good (r := { (answering s _).line p with total := 0 }) good inUse]
        rfl

end Sys2Proof.Machine
end

section
/-!
PROOFS. Ceasing.lean: what a cease comes to (R13, R14, R16), CEASE_LINE (O17) and the range walk (O18).
-/
namespace Sys2Proof.Machine

open Sys2Proof.Safety

variable {s t : State} {p : PortNo} {o : CeaseOutcome} {tag : Nat} {a : Address} {e : EntryNo} {b : Binding}

/-! ## The cease of a port -/

/-- The port of a withdrawn line that a cease takes out of QUARANTINE under its call (R16). -/
def requartered (q : Port) (parkable : Bool) : Port :=
  match q.sup, q.hook with
  | .test, _ => q
  | _, .off => (marked q parkable).place .lockout
  | _, .on => (marked q false).place (if parkable then .parked else .idle)

/-- A withdrawn line with a call after its cease: CEASING without a key, the quarantine ended (R16). -/
def ceasingAnew (s : State) (p : PortNo) : State :=
  { lining s p { s.line p with status := .ceasing, key := none } with
    ports := s.ports.set p
      (requartered (s.port p)
        (decide (s.sense.power = .survival) && decide ((s.line p).cls = .ordinary) && !(s.line p).keep)) }

theorem ceaseWithdrawnCall_eq (s : State) (p : PortNo) : s.ceaseWithdrawnCall p = ceasingAnew s p := by
  let t := s.writeLine p { s.line p with status := .ceasing, key := none }
  have parkable : t.parkable p =
      (decide (s.sense.power = .survival) && decide ((s.line p).cls = .ordinary) && !(s.line p).keep) := by
    have written : (t.line p).parkableClass = (s.line p).parkableClass := by
      simp [t, State.writeLine, State.setLine, State.line, LineRecord.parkableClass]
      rfl
    unfold State.parkable
    rw [written]
    exact (Bool.and_assoc _ _ _).symm
  have locked : (t.mark p (t.parkable p)).place p .lockout = porting t p ((marked (s.port p) (t.parkable p)).place .lockout) :=
    mark_place t p _ _
  have freed (st : SupState) : (t.mark p false).place p st = porting t p ((marked (s.port p) false).place st) :=
    mark_place t p _ _
  have placed : s.ceaseWithdrawnCall p = porting t p (requartered (s.port p) (t.parkable p)) := by
    unfold State.ceaseWithdrawnCall requartered
    dsimp only
    rw [show s.writeLine p _ = t from rfl, show t.port p = s.port p from rfl]
    cases (s.port p).sup with
    | test => exact (setPort_self t p).symm
    | _ =>
      cases (s.port p).hook with
      | off => exact locked
      | on => exact freed _
  rw [placed, parkable]
  rfl

/-- What a cease leaves, and its outcome, by the record and the call it finds (R13, R14, R16). -/
inductive Ceases (s : State) (p : PortNo) : State → CeaseOutcome → Prop
  | anew (hw : (s.line p).withdrawn = true) (hc : s.call p ≠ none) : Ceases s p (ceasingAnew s p) .madeCeasing
  | withdrawn (hw : (s.line p).withdrawn = true) (hc : s.call p = none) :
      Ceases s p (Safety.ceased s p (s.line p).total) .madeVacant
  | damaged (hw : (s.line p).withdrawn = false) (hd : (s.line p).damaged = true) : Ceases s p (s.lineActions p) .damaged
  | already (hu : InUse s p) (hs : (s.line p).status = .vacant) : Ceases s p s .already
  | ceasing (hu : InUse s p) (hs : (s.line p).status ≠ .vacant) (hc : s.call p ≠ none) :
      Ceases s p (lining s p { s.line p with status := .ceasing }) .madeCeasing
  | vacant (hu : InUse s p) (hs : (s.line p).status ≠ .vacant) (hc : s.call p = none) :
      Ceases s p (Safety.ceased s p (s.line p).total) .madeVacant

theorem Ceases.eq (h : Ceases s p t o) : s.cease p = (t, o) := by
  have called {x : Option (EntryNo × Binding)} (h : x ≠ none) : x.isSome = true := Option.isSome_iff_ne_none.mpr h
  unfold State.cease
  cases h with
  | anew hw hc => rw [if_pos hw, if_pos (called hc), ceaseWithdrawnCall_eq]
  | withdrawn hw hc => rw [if_pos hw, if_neg (by simp [hc]), ceaseNow_eq]
  | damaged hw hd => rw [if_neg (by simp [hw]), if_pos hd]
  | already hu hs => rw [if_neg (by simp [hu.1]), if_neg (by simp [hu.2]), if_pos hs]
  | ceasing hu hs hc =>
    rw [if_neg (by simp [hu.1]), if_neg (by simp [hu.2]), if_neg hs, if_pos (called hc)]
    rfl
  | vacant hu hs hc =>
    rw [if_neg (by simp [hu.1]), if_neg (by simp [hu.2]), if_neg hs, if_neg (by simp [hc]), ceaseNow_eq]

theorem ceases_exists (s : State) (p : PortNo) : ∃ t o, Ceases s p t o := by
  by_cases hc : s.call p = none
  · cases hw : (s.line p).withdrawn with
    | true => exact ⟨_, _, .withdrawn hw hc⟩
    | false =>
      cases hd : (s.line p).damaged with
      | true => exact ⟨_, _, .damaged hw hd⟩
      | false =>
        by_cases hs : (s.line p).status = .vacant
        · exact ⟨_, _, .already ⟨hw, hd⟩ hs⟩
        · exact ⟨_, _, .vacant ⟨hw, hd⟩ hs hc⟩
  · cases hw : (s.line p).withdrawn with
    | true => exact ⟨_, _, .anew hw hc⟩
    | false =>
      cases hd : (s.line p).damaged with
      | true => exact ⟨_, _, .damaged hw hd⟩
      | false =>
        by_cases hs : (s.line p).status = .vacant
        · exact ⟨_, _, .already ⟨hw, hd⟩ hs⟩
        · exact ⟨_, _, .ceasing ⟨hw, hd⟩ hs hc⟩

theorem ceases (s : State) (p : PortNo) : Ceases s p (s.cease p).1 (s.cease p).2 := by
  obtain ⟨t, o, h⟩ := ceases_exists s p
  rw [h.eq]
  exact h

/-- A record that a cease makes VACANT or CEASING: withdrawn, or good and not VACANT. -/
abbrev Ceasable (s : State) (p : PortNo) : Prop :=
  (s.line p).withdrawn = true ∨ (InUse s p ∧ (s.line p).status ≠ .vacant)

theorem Ceases.damaged_iff (h : Ceases s p t o) :
    o = .damaged ↔ (s.line p).damaged = true ∧ (s.line p).withdrawn = false := by
  cases h <;> simp_all [InUse]

theorem Ceases.already_iff (h : Ceases s p t o) : o = .already ↔ InUse s p ∧ (s.line p).status = .vacant := by
  cases h <;> simp_all [InUse]

theorem Ceases.madeVacant_iff (h : Ceases s p t o) : o = .madeVacant ↔ Ceasable s p ∧ s.call p = none := by
  cases h <;> simp_all [InUse, Ceasable]

theorem Ceases.madeCeasing_iff (h : Ceases s p t o) : o = .madeCeasing ↔ Ceasable s p ∧ s.call p ≠ none := by
  cases h <;> simp_all [InUse, Ceasable]

/-- The state with another way out, another assembly and another engine. -/
def aside (s : State) (x : Outbox) (y : List Nat) (g : Engine) : State := { s with out := x, assembly := y, engine := g }

/-- A cease that finds no damage neither reads nor writes the way out, the assembly or the engine. -/
theorem Ceases.aside (h : Ceases s p t o) (ho : o ≠ .damaged) (x : Outbox) (y : List Nat) (g : Engine) :
    Ceases (Machine.aside s x y g) p (Machine.aside t x y g) o := by
  cases h with
  | anew hw hc => exact .anew (s := Machine.aside s x y g) hw hc
  | withdrawn hw hc => exact .withdrawn (s := Machine.aside s x y g) hw hc
  | damaged => exact absurd rfl ho
  | already hu hs => exact .already (s := Machine.aside s x y g) hu hs
  | ceasing hu hs hc => exact .ceasing (s := Machine.aside s x y g) hu hs hc
  | vacant hu hs hc => exact .vacant (s := Machine.aside s x y g) hu hs hc

theorem Ceases.same (h : Ceases s p t o) (ho : o ≠ .damaged) :
    t.out = s.out ∧ t.link = s.link ∧ t.engine = s.engine ∧ t.assembly = s.assembly := by
  cases h with
  | damaged => exact absurd rfl ho
  | _ => exact ⟨rfl, rfl, rfl, rfl⟩

/-! ## CEASE_LINE -/

theorem exec_ceaseLine (tag : Nat) (a : Address) (s : State) : exec (.ceaseLine tag a) s = execCeaseLine tag a s := rfl

theorem ceaseLine_made (hl : Listening s) (hq : Quiet s) (hi : s.engine = .idle) (ha : s.resolve a = .port p)
    (h : Ceases s p t o) (ho : o ≠ .damaged) (tag : Nat) :
    exec (.ceaseLine tag a) s =
      .next (answering t [.ack tag (if o = .madeCeasing then .ceasePending else .ok)]) := by
  obtain ⟨out, link, engine, -⟩ := h.same ho
  have made : s.taken.cease p = (voice true { t with assembly := [] } [] [], o) := by
    have eq := (h.aside ho { s.out with holding := true } [] s.engine).eq
    have : Machine.aside t { s.out with holding := true } [] s.engine = voice true { t with assembly := [] } [] [] := by
      rw [← taken_voice (s := t) (by unfold Quiet; rw [out]; exact hq)]
      unfold Machine.aside State.taken
      rw [out, engine]
    rw [← this]
    exact eq
  have answered (c : Code) : ((voice true { t with assembly := [] } [] []).ack tag c).release = answering t [.ack tag c] := by
    rw [ack_release]
    exact voice_answering _ _ (link.trans hl.1) (by unfold Quiet; rw [out]; exact hq)
  rw [exec_ceaseLine, execCeaseLine, takeMessage_provision_idle hl hi]
  simp only [taken_resolve, ha, made]
  cases o with
  | damaged => exact absurd rfl ho
  | _ => exact congrArg Host.Outcome.next (answered _)

theorem ceaseLine_damaged (hl : Listening s) (hi : s.engine = .idle) (ha : s.resolve a = .port p)
    (hd : (s.line p).damaged = true) (hw : (s.line p).withdrawn = false) (tag : Nat) :
    exec (.ceaseLine tag a) s = .next ((s.taken.lineActions p).ack tag .storeFault).release := by
  rw [exec_ceaseLine, execCeaseLine, takeMessage_provision_idle hl hi]
  simp only [taken_resolve, ha, (Ceases.damaged (s := s.taken) hw hd).eq]

/-! ## A damaged line record under a call whose entry is damaged too -/

/-- The line record is withdrawn and counted, and `n` more failures with it. -/
abbrev lineGone (s : State) (p : PortNo) (n : Nat) : State := faulted (s.countFault.withdraw p) n

theorem lineGone_line (s : State) (p : PortNo) (n : Nat) : ((lineGone s p n).line p).withdrawn = true := by
  simp [lineGone, faulted, State.withdraw, State.setLine, State.setIndex, State.leaveQueue, State.line]

theorem not_ceasing_lineGone {k n : Nat} (hr : Leavable (lineGone s p n) k) :
    ¬ Ceasing (bindingLost (leftRinging (lineGone s p n) k) e b) p := by
  rintro ⟨-, hw⟩
  rw [leftRinging_onto hr] at hw
  exact absurd ((lineGone_line s p n).symm.trans hw) (by decide)

theorem bindingLost_port (u : State) (e : EntryNo) (b : Binding) :
    (bindingLost u e b).port b.port = settled { u.port b.port with injector := .idle } :=
  port_porting u b.port _

/-- What stood at the port of a lost binding is written over. -/
theorem bindingLost_porting (u : State) (e : EntryNo) (b : Binding) (q r : Port) (x y : List Message) :
    voice false (porting (bindingLost u e b) b.port r) x y =
      { bindingLost (porting (voice false u x y) b.port q) e b with ports := u.ports.set b.port r } := by
  have ports : (bindingLost u e b).ports.set b.port r = u.ports.set b.port r := Vector.set_set _ _
  rw [← ports]
  rfl

/-- Where the line failure actions leave the port: settled by its hook, and then QUARANTINE (R182). -/
theorem lineGone_ends (hl : Listening s) (hq : Quiet s) {n k : Nat} (hr : Leavable s k) (x y : List Message)
    {u : State} (hu : u = leftRinging (lineGone { s with assembly := [] } b.port n) k) :
    voice false (porting (bindingLost u e b) b.port (quarantined ((bindingLost u e b).port b.port))) x y =
    { bindingLost (leftRinging (faulted (quarantining (answering s (x ++ y)) b.port) n) k) e b with
      ports := s.ports.set b.port (quarantined (settled { s.port b.port with injector := .idle })) } := by
  have frame : Framed { s with assembly := [] } fun v => lineGone v b.port n := ⟨⟨rfl, rfl, rfl⟩, fun _ => rfl⟩
  have gone : Leavable (lineGone { s with assembly := [] } b.port n) k := frame.leavable hr
  have answered : faulted (quarantining (answering s (x ++ y)) b.port) n =
      porting (voice false (lineGone { s with assembly := [] } b.port n) x y) b.port (quarantined (s.port b.port)) := by
    rw [← voice_answering x y hl.1 hq]
    rfl
  have left : leftRinging (faulted (quarantining (answering s (x ++ y)) b.port) n) k =
      porting (voice false u x y) b.port (quarantined (s.port b.port)) := by
    rw [answered, hu]
    exact leftRinging_framed (f := fun v => porting (voice false v x y) b.port (quarantined (s.port b.port)))
      ⟨⟨rfl, rfl, rfl⟩, fun _ => rfl⟩ gone
  have ports : u.ports = s.ports := by
    rw [hu, leftRinging_onto gone]
    rfl
  rw [left, bindingLost_port, State.port_congr ports, ← ports]
  exact bindingLost_porting u e b _ _ x y

section
variable (hl : Listening s) (hq : Quiet s) (hc : s.call p = some (e, b)) (hp : b.phase ≠ .clearing)
  (hd : (s.entry e).damaged = true) (hr : NotRinging s b.handle ∨ ∀ f, f ≠ e → (s.entry f).damaged = false)
include hl hq hc hp hd hr

theorem lineFault_entry (tag : Nat) (hs : (s.slot b.slot).damaged = false) :
    ((s.taken.lineActions p).ack tag .storeFault).release =
      { bindingLost
          (leftRinging
            (faulted
              (quarantining
                (answering s [.clear (s.slot b.slot).handle .storeFault b.meterCount, .ack tag .storeFault,
                  .integrity .line p.val (s.slot b.slot).handle,
                  .integrity .binding e.val (s.slot b.slot).handle]) p) 1) b.handle) e b with
        ports := s.ports.set p (quarantined (settled { s.port p with injector := .idle })) } := by
  obtain rfl := call_port hc
  have he := (findBinding_found hc).1
  have leave := leavable_of_others he hr
  have frame : Framed { s with assembly := [] } fun v => lineGone v b.port 1 := ⟨⟨rfl, rfl, rfl⟩, fun _ => rfl⟩
  have gone : Leavable (lineGone { s with assembly := [] } b.port 1) b.handle := frame.leavable leave
  rw [taken_voice hq, lineActions_entry (s := { s with assembly := [] }) true [] hc hp hd,
    bindingActions_clears (s := ({ s with assembly := [] } : State).countFault.withdraw b.port) true [] _ he hs (leaves_leftRinging gone)
      (completes_none (not_ceasing_lineGone gone)),
    quarantine_voice, ack_release]
  exact lineGone_ends hl hq leave
    [.clear (s.slot b.slot).handle .storeFault b.meterCount, .ack tag .storeFault,
     .integrity .line b.port.val (s.slot b.slot).handle, .integrity .binding e.val (s.slot b.slot).handle] [] rfl

theorem lineFault_entry_slot (tag : Nat) (hs : (s.slot b.slot).damaged = true) :
    ((s.taken.lineActions p).ack tag .storeFault).release =
      { bindingLost
          (leftRinging
            (faulted
              (quarantining
                (answering s [.ack tag .storeFault, .integrity .line p.val 0, .integrity .binding e.val 0,
                  .integrity .slot (b.slot.val + 1) 0]) p) 2) b.handle) e b with
        ports := s.ports.set p (quarantined (settled { s.port p with injector := .idle })) } := by
  obtain rfl := call_port hc
  have he := (findBinding_found hc).1
  have leave := leavable_of_others he hr
  have frame : Framed { s with assembly := [] } fun v => lineGone v b.port 2 := ⟨⟨rfl, rfl, rfl⟩, fun _ => rfl⟩
  have gone : Leavable (lineGone { s with assembly := [] } b.port 2) b.handle := frame.leavable leave
  rw [taken_voice hq, lineActions_entry (s := { s with assembly := [] }) true [] hc hp hd,
    bindingActions_both (s := ({ s with assembly := [] } : State).countFault.withdraw b.port) true [] _ he hs (leaves_leftRinging gone)
      (completes_none (not_ceasing_lineGone gone)),
    quarantine_voice, ack_release]
  exact lineGone_ends hl hq leave
    [.ack tag .storeFault, .integrity .line b.port.val 0, .integrity .binding e.val 0,
     .integrity .slot (b.slot.val + 1) 0] [] rfl

end

/-- Settles O17: a cease by the record it finds, and of a damaged record the failure actions with their answer. -/
theorem ceaseLineCeases : Obligations.CeaseLineCeases := by
  intro s tag a p hl hq hi ha
  refine ⟨fun hu hs => ceaseLine_made hl hq hi ha (.already hu hs) nofun tag, fun hc h => ?_,
    fun hc hu hs => ceaseLine_made hl hq hi ha (.ceasing hu hs hc) nofun tag,
    fun hc hw _ => ceaseLine_made hl hq hi ha (.anew hw hc) nofun tag, fun hd hw => ?_⟩
  · rcases h with hw | ⟨hu, hs⟩
    · exact ceaseLine_made hl hq hi ha (.withdrawn hw hc) nofun tag
    · exact ceaseLine_made hl hq hi ha (.vacant hu hs hc) nofun tag
  · rw [ceaseLine_damaged hl hi ha hd hw tag]
    refine ⟨fun hc => ?_, fun e b hc hp hr => ?_, fun e b hc hp he hr q hqq => ⟨fun hs h hh => ?_, fun hs => ?_⟩⟩
    · rw [lineFault_idle hl hq hc]
    · rw [lineFault_call hl hq hc hp (leavable_of_read hr)]
    · rw [hqq, hh, lineFault_entry hl hq hc hp he hr tag hs]
    · rw [hqq, lineFault_entry_slot hl hq hc hp he hr tag hs]

/-! ## The range walk -/

theorem hold_voice (hq : Quiet s) : s.hold = voice true s [] [] := by
  conv =>
    lhs
    rw [← voice_begin hq]
  rw [voice_hold, if_neg (by decide), List.append_nil]

theorem portOfNumber_lt {n : Nat} (h : n < 48) : portOfNumber n = some ⟨n, h⟩ := dif_pos h

theorem portOfNumber_ge {n : Nat} (h : 48 ≤ n) : portOfNumber n = none := dif_neg (by omega)

theorem exec_clearRange (tag first last : Nat) (s : State) :
    exec (.clearRange tag first last) s = execClearRange tag first last s := rfl

theorem clearRange_starts (hl : Listening s) (hq : Quiet s) (hi : s.engine = .idle) (tag : Nat) {first last : Nat}
    (hf : first < 48) (h : last < 48) (le : first ≤ last) :
    exec (.clearRange tag first last) s =
      .next { answering s [] with
        engine := .walk
          { tag := tag, pos := ⟨first, hf⟩, last := ⟨last, h⟩, madeVacant := 0, madeCeasing := 0, linkLost := false,
            left := 20 } } := by
  rw [exec_clearRange, execClearRange, takeMessage_provision_idle hl hi, portOfNumber_lt hf, portOfNumber_lt h]
  dsimp only
  rw [if_neg (by simpa using le), ← taken_release hq]
  rfl

theorem clearRange_refused (hl : Listening s) (hq : Quiet s) (hi : s.engine = .idle) (tag : Nat) {first last : Nat}
    (h : 48 ≤ first ∨ 48 ≤ last ∨ last < first) :
    exec (.clearRange tag first last) s = .next (answering s [.ack tag .badValue]) := by
  rw [exec_clearRange, execClearRange, takeMessage_provision_idle hl hi, ← ack_taken hl hq]
  by_cases hf : first < 48
  · by_cases hlast : last < 48
    · rw [portOfNumber_lt hf, portOfNumber_lt hlast]
      dsimp only
      rw [if_pos (by simp only [Fin.mk_lt_mk]; omega)]
    · rw [portOfNumber_lt hf, portOfNumber_ge (by omega)]
  · rw [portOfNumber_ge (n := first) (by omega)]

/-- The counts after a step (R19). -/
def counts (w : RangeWalk) (o : CeaseOutcome) : RangeWalk :=
  { w with
    madeVacant := w.madeVacant + (if o = .madeVacant then 1 else 0)
    madeCeasing := w.madeCeasing + (if o = .madeCeasing then 1 else 0) }

theorem endWalk_telling (hq : Quiet t) (v : RangeWalk) (m : Message) :
    (voice true t [] []).endWalk v m = telling { t with engine := .idle } (if v.linkLost = true then [] else [m]) := by
  unfold State.endWalk
  dsimp only
  split
  · exact (voice_release true (s := { t with engine := .idle }) [] []).trans
      (voice_telling (s := { t with engine := .idle }) _ _ hq)
  · exact (voice_reply (s := { t with engine := .idle }) [] [] m).trans
      (voice_telling (s := { t with engine := .idle }) _ _ hq)

section
variable {w : RangeWalk} (hq : Quiet s) (he : s.engine = .walk w)
include hq he

theorem rangeStep_made (h : Ceases s w.pos t o) (ho : o ≠ .damaged) :
    exec .rangeStep s = .next
      (if w.last ≤ w.pos then
        (voice true t [] []).endWalk (counts w o) (.rangeDone w.tag (counts w o).madeVacant (counts w o).madeCeasing)
      else
        { t with engine := .walk { counts w o with pos := w.pos + 1, left := 20 } }) := by
  obtain ⟨out, link, engine, assembly⟩ := h.same ho
  have made : s.hold.cease w.pos = (voice true t [] [], o) := by
    have eq := (h.aside ho s.hold.out s.assembly s.engine).eq
    have : aside t s.hold.out s.assembly s.engine = voice true t [] [] := by
      rw [← hold_voice (s := t) (by unfold Quiet; rw [out]; exact hq)]
      unfold aside State.hold
      rw [out, engine, assembly]
    rw [← this]
    exact eq
  have rests (g : Engine) : ({ voice true t [] [] with engine := g } : State).release = { t with engine := g } := by
    have quiet : Quiet ({ t with engine := g } : State) := by unfold Quiet; rw [out]; exact hq
    exact (voice_release true (s := { t with engine := g }) [] []).trans (voice_begin quiet)
  show execRangeStep s = _
  rw [execRangeStep, he]
  dsimp only
  rw [made]
  cases o with
  | damaged => exact absurd rfl ho
  | _ =>
    dsimp only
    rw [rests]
    rfl

theorem rangeStep_damaged (hd : (s.line w.pos).damaged = true) (hw : (s.line w.pos).withdrawn = false)
    (hc : s.call w.pos = none) (hl : s.link = .up) (up : w.linkLost = false) :
    exec .rangeStep s =
      .next { quarantining s w.pos with
        engine := .idle
        out := { s.out with sent := s.out.sent ++ [.ack w.tag .storeFault, .integrity .line w.pos.val 0] } } := by
  have damaged : s.hold.cease w.pos = (voice true (quarantining s w.pos) [] [.integrity .line w.pos.val 0], .damaged) := by
    rw [hold_voice hq, (Ceases.damaged (s := voice true s [] []) hw hd).eq, lineActions_idle true _ _ (clearing_of_none hc)]
    rfl
  show execRangeStep s = _
  rw [execRangeStep, he]
  dsimp only
  rw [damaged]
  dsimp only
  unfold State.endWalk
  rw [up, if_neg (by decide)]
  refine congrArg Host.Outcome.next ?_
  refine (voice_reply (s := { quarantining s w.pos with engine := .idle }) [] _ _).trans ?_
  rw [voice_telling (s := { quarantining s w.pos with engine := .idle }) _ _ hq]
  exact if_pos hl

end

/-- Settles O18: a step is the cease of the port at the position, and then the end of the walk or the next position. -/
theorem rangeWalkSteps : Obligations.RangeWalkSteps := by
  refine ⟨fun s tag first last hl hq hi => ⟨fun hf h le => ⟨⟨last, h⟩, rfl, clearRange_starts hl hq hi tag hf h le⟩,
    clearRange_refused hl hq hi tag⟩, fun s w hq he => ?_⟩
  have outcome := ceases s w.pos
  have step := rangeStep_made hq he outcome
  have same := outcome.same
  have listed := fun ho => outcome.aside ho
  generalize (s.cease w.pos).1 = t at outcome step same listed ⊢
  generalize (s.cease w.pos).2 = o at outcome step same listed ⊢
  refine ⟨fun lt ho => ?_, fun le ho => ?_, fun tag hl ho => ?_, ?_, ?_, ?_, ?_, fun ho hc hl up => ?_⟩
  · rw [step ho, if_neg (by simpa using lt)]
    rfl
  · obtain ⟨out, -⟩ := same ho
    rw [step ho, if_pos le, endWalk_telling (by unfold Quiet; rw [out]; exact hq)]
    rfl
  · obtain ⟨out, -, -, assembly⟩ := same ho
    have aligned : aside t s.out s.assembly .idle = { t with engine := .idle } := by
      unfold aside
      rw [← out, ← assembly]
    have ceased := listed ho s.out s.assembly .idle
    rw [aligned] at ceased
    exact ceaseLine_made (s := { s with engine := .idle }) (a := .port w.pos.val) (p := w.pos) hl hq rfl (congrArg Resolved.ofOption (portOfNumber_lt w.pos.isLt))
      ceased ho tag
  · exact outcome.damaged_iff
  · exact outcome.already_iff
  · exact outcome.madeVacant_iff
  · exact outcome.madeCeasing_iff
  · obtain ⟨hd, hw⟩ := outcome.damaged_iff.mp ho
    exact rangeStep_damaged hq he hd hw hc hl up

end Sys2Proof.Machine
end

section
/-!
PROOFS. TestBus.lean: TEST_CONNECT (O31), TEST_RELEASE and the expiry of T_test (O32).
-/
namespace Sys2Proof.Machine

open Sys2Proof.Safety

variable {s t : State} {p : PortNo} {tag : Nat} {a : Address} {e : EntryNo} {b : Binding}

/-! ## Connecting -/

theorem exec_testConnect (tag : Nat) (a : Address) (f : Bool) (s : State) :
    exec (.testConnect tag a f) s = execTestConnect tag a f s := rfl

/-- A port that goes to TEST, its latch kept (R26, R168). -/
def connectedPort (q : Port) (kept : Drive) : Port :=
  { q with
    sup := .test
    testLatch := kept
    classifier := if q.sup = .vacant ∨ q.sup = .parked then (if q.lineClosed = true then .closure 0 else .atRest)
                  else q.classifier }

theorem place_test (q : Port) (kept : Drive) : { q.place .test with testLatch := kept } = connectedPort q kept := by
  unfold connectedPort
  cases hq : q.sup.fed with
  | true =>
    obtain ⟨hv, hp⟩ := fed_iff.mp hq
    rw [place_fed hq rfl, if_neg (not_or.mpr ⟨hv, hp⟩)]
  | false => rw [place_gain hq rfl, if_pos (unfed_iff.mp hq)]

theorem connectBus_eq (s : State) (p : PortNo) (kept : Drive) :
    s.connectBus p kept =
      { s with bus := some (s.testHold p), ports := s.ports.set p (connectedPort (s.port p) kept) } :=
  congrArg (fun q => ({ s with bus := some (s.testHold p) } : State).setPort p q) (place_test (s.port p) kept)

section
variable (hl : Listening s) (hq : Quiet s) (ha : s.resolve a = .port p) (na : a ≠ .cursor) (f : Bool)
include hl ha na

theorem testConnect_again {h : TestHold} (hq : Quiet s) (hb : s.bus = some h) (hp : h.port = p) (tag : Nat) :
    exec (.testConnect tag a f) s = .next { answering s [.ack tag .ok] with bus := some (s.testHold p) } := by
  have again := ack_after hl hq (fun u => { u with bus := some (s.testHold p) }) tag .ok fun _ _ _ => rfl
  rw [exec_testConnect, execTestConnect, takeMessage_listening hl]
  simp only [resolveNoCursor_eq na, taken_resolve, ha, taken_fields, hb, taken_testHold, hp, if_true]
  exact congrArg Host.Outcome.next ((congrArg State.release again).trans (release_quiet hq))

theorem testConnect_busy {h : TestHold} (hq : Quiet s) (hb : s.bus = some h) (hp : h.port ≠ p) (tag : Nat) :
    exec (.testConnect tag a f) s = .next (answering s [.ack tag .busBusy]) := by
  rw [exec_testConnect, execTestConnect, takeMessage_listening hl]
  simp only [resolveNoCursor_eq na, taken_resolve, ha, taken_fields, hb, hp, if_false, ack_taken hl hq]

variable (hb : s.bus = none)
include hb

theorem testConnect_free (tag : Nat) :
    exec (.testConnect tag a f) s =
      .next (if (s.port p).sup = .bound then if f then s.taken.connectForced tag p else s.taken.ack tag .lineBusy
        else s.taken.connectIdle tag p).release := by
  rw [exec_testConnect, execTestConnect, takeMessage_listening hl]
  simp only [resolveNoCursor_eq na, taken_resolve, ha, taken_fields, hb, taken_port]
  rfl

theorem testConnect_idle (hq : Quiet s) (hs : (s.port p).sup ≠ .bound) (tag : Nat) :
    exec (.testConnect tag a f) s =
      .next { answering s [.ack tag .ok] with
        bus := some (s.testHold p)
        owq := s.owq.filter fun w => !decide (w.port = p)
        ports := s.ports.set p (connectedPort (s.port p) (s.latch p)) } := by
  have connected : s.taken.connectIdle tag p =
      ((answering s [.ack tag .ok]).leaveQueue p).connectBus p (s.latch p) :=
    ack_after hl hq (fun u => (u.leaveQueue p).connectBus p (s.latch p)) tag _ fun held x y => by
      rw [connectBus_eq, connectBus_eq]
      rfl
  rw [testConnect_free hl ha na f hb, if_neg hs, connected, connectBus_eq]
  exact congrArg Host.Outcome.next (release_quiet hq)

end

/-- The forced port: its injector idle, in TEST, its latch kept (R93, R169). -/
def forcedPort (q : Port) (kept : Drive) : Port := { q with sup := .test, testLatch := kept, injector := .idle }

/-- A BOUND port of this call on the bus, the call in CLEARING but not yet out of the ringing lists. -/
def forced (s : State) (e : EntryNo) (b : Binding) (kept : Drive) : State :=
  { holding s e (some (inClearing s b)) with
    bus := some (s.testHold b.port), ports := s.ports.set b.port (forcedPort (s.port b.port) kept) }

theorem connectedPort_bound {q : Port} (h : q.sup = .bound) (kept : Drive) :
    connectedPort { q with injector := .idle } kept = forcedPort q kept := by
  unfold connectedPort
  rw [if_neg (by simp [h])]
  rfl

section
variable (hl : Listening s) (hq : Quiet s) (ha : s.resolve a = .port b.port) (na : a ≠ .cursor) (hb : s.bus = none)
  (hs : (s.port b.port).sup = .bound) (hc : Holds s b.port e b)
include hl hq ha na hb hs hc

theorem testConnect_forced {u : State}
    (left : Leaves (forced { s with assembly := [] } e b (s.latch b.port)) b.handle u) (tag : Nat) :
    exec (.testConnect tag a true) s =
      .next (voice false u [.clear b.handle .test b.meterCount, .ack tag .ok] []) := by
  obtain ⟨call, good⟩ := hc
  have effects (x y : List Message) :
      (voice true { s with assembly := [] } x y).clearingEffects e b (fun t => t.connectBus b.port (s.latch b.port)) =
        voice true u x y := by
    have moved : (((voice true { s with assembly := [] } x y).writeEntry e (some (inClearing s b))).stopInjector
        b.port).connectBus b.port (s.latch b.port) =
          voice true (forced { s with assembly := [] } e b (s.latch b.port)) x y := by
      rw [connectBus_eq]
      have port : (((voice true { s with assembly := [] } x y).writeEntry e (some (inClearing s b))).stopInjector
          b.port).port b.port = { s.port b.port with injector := .idle } := port_porting s b.port _
      have ports (q r : Port) : (s.ports.set b.port q).set b.port r = s.ports.set b.port r := Vector.set_set _ _
      rw [port, connectedPort_bound hs]
      unfold forced
      rw [← ports { s.port b.port with injector := .idle }]
      rfl
    unfold State.clearingEffects
    dsimp only
    exact (congrArg (fun v => State.leaveRinging v State.budgetPass b.handle) moved).trans (left _ _ _)
  rw [testConnect_free hl ha na true hb, if_pos hs, if_pos rfl]
  unfold State.connectForced
  rw [taken_call, call]
  dsimp only
  rw [if_neg (by rw [taken_entry, good]; decide), taken_latch, State.enterClearing, taken_voice hq, voice_sendNow,
    effects, ack_release]
  rfl

end

/-- Settles O31: the checks of R167 in order; a forced call leaves the ringing lists before the answer. -/
theorem testConnects : Obligations.TestConnects := by
  intro s tag a p f hl hq ha na
  refine ⟨fun h hb hp => testConnect_again hl ha na f hq hb hp tag, fun h hb hp => testConnect_busy hl ha na f hq hb hp tag,
    fun hb hs hf => ?_, fun hb hs => testConnect_idle hl ha na f hb hq hs tag, fun e b hb hs hf hc last => ?_,
    fun e b hb hs hf hc alone => ?_, fun e b hb hs hf hc rings read => ?_⟩
  · rw [testConnect_free hl ha na f hb, if_pos hs, hf, if_neg (by decide), ack_taken hl hq]
  all_goals
    obtain rfl := call_port hc.1
    subst hf
    have said := voice_answering [.clear b.handle .test b.meterCount, .ack tag .ok] [] hl.1 hq
  · rw [testConnect_forced hl hq ha na hb hs hc (leaves_last (s := forced { s with assembly := [] } e b _) last) tag]
    exact congrArg Host.Outcome.next (congrArg (fun u => unringing (forced u e b (s.latch b.port)) b.handle) said)
  · rw [testConnect_forced hl hq ha na hb hs hc (leaves_leftRinging (.inl alone)) tag, 
      leftRinging_none (s := forced { s with assembly := [] } e b _) alone]
    exact congrArg Host.Outcome.next (congrArg (fun u => forced u e b (s.latch b.port)) said)
  · let z : State := forced { s with assembly := [] } e b (s.latch b.port)
    have listed : ListedRead (unringing z b.handle) :=
      EntriesRead.listed (s := unringing z b.handle) (entriesRead_set read e (some (inClearing s b)))
    have pass := budgetPass_beside (s := unringing z b.handle)
      (fun u => voice false u [.clear b.handle .test b.meterCount, .ack tag .ok] []) listed ⟨rfl, rfl, rfl⟩ fun _ => rfl
    rw [testConnect_forced hl hq ha na hb hs hc (leaves_leftRinging (.inr listed)) tag, leftRinging_some (s := z) rings,
      ← pass]
    exact congrArg Host.Outcome.next
      (congrArg (fun u => (unringing (forced u e b (s.latch b.port)) b.handle).budgetPass) said)

/-! ## Releasing -/

theorem disconnect_reads (hr : Reads s p) (ht : (s.port p).sup = .test) :
    s.disconnect p = { s with bus := none, ports := s.ports.set p (released s p) } := by
  have good : s.placementFault p = false := not_placementFault hr
  have fed : ({ s.port p with parkPending := false } : Port).sup.fed = true := by
    show (s.port p).sup.fed = true
    rw [ht]
    rfl
  have placed (st : SupState) : ((({ s with bus := none } : State).mark p false).place p st) =
      { s with bus := none, ports := s.ports.set p ({ s.port p with parkPending := false }.place st) } :=
    mark_place { s with bus := none } p false st
  have marked : ((({ s with bus := none } : State).mark p false).port p) = { s.port p with parkPending := false } :=
    port_porting { s with bus := none } p _
  have parkable : s.parkable p = true ↔
      s.sense.power = .survival ∧ (s.line p).cls = .ordinary ∧ (s.line p).keep = false := by
    simp [State.parkable, LineRecord.parkableClass]
  unfold State.disconnect
  dsimp only
  rw [show (if s.placementFault p = true then s.lineActions p else s) = s from if_neg (by simp [good]), placed, placed]
  unfold released State.returnState
  rw [marked, show (({ s with bus := none } : State).mark p false).line p = s.line p from rfl,
    show (({ s with bus := none } : State).mark p false).parkable p = s.parkable p from rfl]
  simp only [parkable]
  by_cases withdrawn : (s.line p).withdrawn = true
  · rw [if_pos withdrawn, if_pos withdrawn, place_fed fed rfl]
  rw [if_neg withdrawn, if_neg withdrawn]
  by_cases vacant : (s.line p).status = .vacant
  · rw [if_pos vacant, if_pos vacant, place_unfed _ rfl]
  rw [if_neg vacant, if_neg vacant]
  by_cases parks : s.sense.power = .survival ∧ (s.line p).cls = .ordinary ∧ (s.line p).keep = false
  · rw [if_pos parks, if_pos parks, place_unfed _ rfl]
  rw [if_neg parks, if_neg parks]
  by_cases off : (s.port p).hook = .off
  · rw [if_pos off, if_pos off, place_fed fed rfl]
  · rw [if_neg off, if_neg off, place_fed fed rfl]

/-- The release of a port whose record is damaged leaves it in QUARANTINE (R172, R179). -/
theorem disconnect_damaged (hd : (s.line p).damaged = true) (hw : (s.line p).withdrawn = false)
    (ht : (s.port p).sup = .test) (hc : ∀ e b, s.call p = some (e, b) → b.phase = .clearing) (x : List Message) :
    (voice true s x []).disconnect p =
      voice true { quarantining s p with
        bus := none, ports := s.ports.set p { s.port p with sup := .quarantine, parkPending := false } } x
        [.integrity .line p.val 0] := by
  have fault : (voice true s x []).placementFault p = true := by
    show ((s.line p).damaged && !(s.line p).withdrawn) = true
    simp [hd, hw]
  let u : State := { voice true (quarantining s p) x [.integrity .line p.val 0] with bus := none }
  have found : (u.mark p false).line p = { s.line p with withdrawn := true } := by
    simp [u, voice, quarantining, faulted, State.mark, State.setPort, State.line]
  have port : u.port p = { s.port p with parkPending := false } := by
    refine (port_porting s p (quarantined (s.port p))).trans ?_
    exact if_pos ht
  have fed : ({ s.port p with parkPending := false } : Port).sup.fed = true := by
    show (s.port p).sup.fed = true
    rw [ht]
    rfl
  unfold State.disconnect
  dsimp only
  rw [show (if (voice true s x []).placementFault p = true then (voice true s x []).lineActions p else voice true s x []) =
    (voice true s x []).lineActions p from if_pos fault, lineActions_idle true x [] hc, List.nil_append, show State.mark _ p false = u.mark p false from rfl,
    found, if_pos rfl, mark_place, port, place_fed fed rfl]
  have ports : (s.ports.set p (quarantined (s.port p))).set p { s.port p with sup := .quarantine, parkPending := false } =
      s.ports.set p { s.port p with sup := .quarantine, parkPending := false } := Vector.set_set _ _
  rw [← ports]
  rfl

theorem exec_testRelease (tag : Nat) (a : Address) (s : State) :
    exec (.testRelease tag a) s = execTestRelease tag a s := rfl

section
variable (hl : Listening s) (ha : s.resolve a = .port p) (na : a ≠ .cursor)
include hl ha na

theorem testRelease_wrongPhase (hq : Quiet s) (ht : (s.port p).sup ≠ .test) (tag : Nat) :
    exec (.testRelease tag a) s = .next (answering s [.ack tag .wrongPhase]) := by
  rw [exec_testRelease, execTestRelease, takeMessage_listening hl]
  simp only [resolveNoCursor_eq na, taken_resolve, ha, taken_port, ht, if_false, ack_taken hl hq]

theorem testRelease_test (ht : (s.port p).sup = .test) (tag : Nat) :
    exec (.testRelease tag a) s =
      .next ((s.taken.disconnect p).ack tag (if s.placementFault p then .storeFault else .ok)).release := by
  rw [exec_testRelease, execTestRelease, takeMessage_listening hl]
  simp only [resolveNoCursor_eq na, taken_resolve, ha, taken_port, ht, if_true]
  rfl

end

theorem tTestExpiry_eq {left : Nat} (hb : s.bus = some { port := p, left := left }) :
    exec .tTestExpiry s =
      .next ((s.hold.disconnect p).reply (.testEnded p ((s.hold.disconnect p).port p).sup)) := by
  show execTTestExpiry s = _
  rw [execTTestExpiry, hb]

/-- Settles O32: the record decides where the port goes, whichever event releases it. -/
theorem testReleases : Obligations.TestReleases := by
  refine ⟨fun s p hq hr => ⟨fun tag a hl ha na => ⟨fun ht => ?_, fun ht => testRelease_wrongPhase hl ha na hq ht tag⟩,
    fun left hb ht => ?_⟩, fun s p hq hd hw ht hc q hqq => ⟨fun tag a hl ha na => ?_, fun left hb => ?_⟩⟩
  · have good : s.placementFault p = false := not_placementFault hr
    have answered := ack_after hl hq
      (fun u => { u with bus := none, ports := s.ports.set p (released s p) }) tag .ok fun _ _ _ => rfl
    rw [testRelease_test hl ha na ht, good, if_neg (by decide), disconnect_reads (s := s.taken) hr ht]
    exact congrArg Host.Outcome.next ((congrArg State.release answered).trans (release_quiet hq))
  · let u : State := { s with bus := none, ports := s.ports.set p (released s p) }
    have port : u.port p = released s p := port_porting s p _
    have told := (voice_reply (s := u) [] [] (.testEnded p (released s p).sup)).trans (voice_telling (s := u) _ _ hq)
    rw [tTestExpiry_eq hb, hold_voice hq, disconnect_reads (s := voice true s [] []) hr ht]
    exact congrArg Host.Outcome.next
      ((congrArg (fun st => (voice true u [] []).reply (.testEnded p st)) (congrArg Port.sup port)).trans told)
  · have fault : s.placementFault p = true := by
      show ((s.line p).damaged && !(s.line p).withdrawn) = true
      simp [hd, hw]
    rw [testRelease_test hl ha na ht, fault, if_pos rfl, taken_voice hq,
      disconnect_damaged (s := { s with assembly := [] }) hd hw ht hc [], ack_release, hqq]
    exact congrArg Host.Outcome.next (congrArg
      (fun u => { quarantining u p with
        bus := none, ports := s.ports.set p { s.port p with sup := .quarantine, parkPending := false } })
      (voice_answering [.ack tag .storeFault, .integrity .line p.val 0] [] hl.1 hq))
  · let u : State := { quarantining s p with
      bus := none, ports := s.ports.set p { s.port p with sup := .quarantine, parkPending := false } }
    have port : u.port p = { s.port p with sup := .quarantine, parkPending := false } := port_porting s p _
    have told := (voice_reply (s := u) [] [.integrity .line p.val 0] (.testEnded p .quarantine)).trans
      (voice_telling (s := u) _ _ hq)
    rw [tTestExpiry_eq hb, hold_voice hq, disconnect_damaged hd hw ht hc [], hqq]
    exact congrArg Host.Outcome.next
      ((congrArg (fun st => (voice true u [] [.integrity .line p.val 0]).reply (.testEnded p st)) (congrArg Port.sup port)).trans
        told)

end Sys2Proof.Machine
end

section
/-!
PROOFS. Loop.lean: digits and flashes (O44), and what a loop that closes or opens does (O43).
-/
namespace Sys2Proof.Machine

open Sys2Proof.Safety

variable {s : State} {p : PortNo} {e : EntryNo} {b : Binding} {d : Dialled}

/-! ## Telling -/

/-- What has been sent once these messages have left, or have been dropped (R192). -/
def said (s : State) (ms : List Message) : Outbox :=
  if s.link = .up then { s.out with sent := s.out.sent ++ ms } else s.out

theorem telling_eq (s : State) (ms : List Message) : telling s ms = { s with out := said s ms } := by
  unfold telling said
  split <;> rfl

theorem telling_telling (x y : List Message) : telling (telling s x) y = telling s (x ++ y) := by
  unfold telling
  by_cases hl : s.link = .up <;> simp [hl]

/-! ## Delivery (R36) -/

/-- A digit or flash is discarded and counted. -/
def overflowed (s : State) (n : Nat) : State :=
  { s with counters := { s.counters with earlyOverflows := min (s.counters.earlyOverflows + n) 65535 } }

theorem overflowed_overflowed (s : State) (m n : Nat) : overflowed (overflowed s m) n = overflowed s (m + n) := by
  have sum : min (min (s.counters.earlyOverflows + m) 65535 + n) 65535 = min (s.counters.earlyOverflows + (m + n)) 65535 :=
    by omega
  unfold overflowed
  dsimp only
  rw [sum]

theorem appendEarly_room (h : (b.early.getD []).length < 4) :
    s.appendEarly e b d = holding s e (some { b with early := some (b.early.getD [] ++ [d]) }) :=
  if_neg (by omega)

theorem appendEarly_full (h : 4 ≤ (b.early.getD []).length) : s.appendEarly e b d = overflowed s 1 := if_pos h

theorem deliver_unbound (h : (s.port p).sup ≠ .bound) : s.deliver p d = s := if_neg h

section
variable (hs : (s.port p).sup = .bound) (hc : Holds s p e b)
include hs hc

theorem deliver_speaking (hq : s.out.holding = false) (hp : b.phase = .dialling ∨ b.phase = .connected) :
    s.deliver p d = telling s [d.message b.handle] := by
  unfold State.deliver
  rw [if_pos hs, hc.1, ← sends_quiet hq]
  rcases hp with hp | hp <;> simp [hp, hc.2]

theorem deliver_seizing (hp : b.phase = .seizing) : s.deliver p d = s.appendEarly e b d := by
  unfold State.deliver
  rw [if_pos hs, hc.1]
  simp [hp, hc.2]

theorem deliver_clearing (hp : b.phase = .clearing) : s.deliver p d = s := by
  unfold State.deliver
  rw [if_pos hs, hc.1]
  simp [hp]

end

theorem clearCount_eq (s : State) (p : PortNo) (h : (s.port p).classifier = .make) :
    s.clearCount p = porting s p (declared (s.port p) (s.port p).hook .make) := by
  unfold State.clearCount declared
  rw [← h]
  rfl

/-- Settles O44: the count is cleared, and the digit goes where the call takes it. -/
theorem digitsAreDelivered : Obligations.DigitsAreDelivered := by
  refine ⟨fun n _ => rfl, fun s p k hq hc hm hn => ?_⟩
  have ends : exec (.digitEnd p) s = .next
      ((porting s p (declared (s.port p) (s.port p).hook .make)).deliver p (.digit (digitOfPulses (s.port p).pulses))) := by
    show execDigitEnd p s = _
    rw [execDigitEnd, hc, hm]
    dsimp only
    rw [if_neg (by omega), clearCount_eq s p hc]
  have sup : ((porting s p (declared (s.port p) (s.port p).hook .make)).port p).sup = (s.port p).sup := by
    rw [port_porting]
    rfl
  rw [ends]
  refine ⟨fun hs => congrArg _ (deliver_unbound (sup ▸ hs)), fun e b hs hh => ?_⟩
  have hs := sup.trans hs
  have hh : Holds (porting s p (declared (s.port p) (s.port p).hook .make)) p e b := hh
  refine ⟨fun hp => congrArg _ (deliver_speaking hs hh hq.2 hp), fun hp room => ?_, fun hp full => ?_,
    fun hp => congrArg _ (deliver_clearing hs hh hp)⟩
  · rw [deliver_seizing hs hh hp, appendEarly_room room]
  · rw [deliver_seizing hs hh hp, appendEarly_full full]
    rfl

/-! ## Flashes (R35) -/

/-- What a flash yields: a partial digit goes first, as BAD (R35). -/
def flashes (pulses : Nat) : List Dialled := if 1 ≤ pulses then [.digit .bad, .flash] else [.flash]

/-- Each digit or flash in turn. -/
def State.deliverAll (s : State) (p : PortNo) (ds : List Dialled) : State := ds.foldl (fun t d => t.deliver p d) s

theorem flash_deliverAll (h : (s.port p).classifier = .make) :
    s.flash p = (porting s p (declared (s.port p) (s.port p).hook .make)).deliverAll p (flashes (s.port p).pulses) := by
  unfold State.flash flashes
  rw [clearCount_eq s p h]
  split <;> rfl

theorem deliverAll_unbound (h : (s.port p).sup ≠ .bound) (ds : List Dialled) : s.deliverAll p ds = s := by
  induction ds with
  | nil => rfl
  | cons d ds ih => rw [State.deliverAll, List.foldl_cons, deliver_unbound h]; exact ih

section
variable (hs : (s.port p).sup = .bound) (hc : Holds s p e b)
include hs hc

theorem deliverAll_clearing (hp : b.phase = .clearing) (ds : List Dialled) : s.deliverAll p ds = s := by
  induction ds with
  | nil => rfl
  | cons d ds ih => rw [State.deliverAll, List.foldl_cons, deliver_clearing hs hc hp]; exact ih

theorem deliverAll_speaking (hq : s.out.holding = false) (hp : b.phase = .dialling ∨ b.phase = .connected)
    (ds : List Dialled) : s.deliverAll p ds = telling s (ds.map (Dialled.message b.handle)) := by
  induction ds generalizing s with
  | nil => simp [State.deliverAll, telling]
  | cons d ds ih =>
    have told := telling_eq s [d.message b.handle]
    have quiet : (telling s [d.message b.handle]).out.holding = false := by
      rw [told]
      unfold said
      split <;> exact hq
    have next := ih (s := telling s [d.message b.handle]) (by rw [told]; exact hs) (by rw [told]; exact hc) quiet
    rw [State.deliverAll, List.foldl_cons, deliver_speaking hs hc hq hp]
    exact next.trans (telling_telling _ _)

variable (hp : b.phase = .seizing)
include hp

/-- With room for it a digit or flash joins the early list, and the call is found there again (R36). -/
theorem deliver_room (h : (b.early.getD []).length < 4) :
    ∃ c : Binding, c = { b with early := some (b.early.getD [] ++ [d]) } ∧ s.deliver p d = holding s e (some c) ∧
      Holds (holding s e (some c)) p e c := by
  refine ⟨_, rfl, ?_, findBinding_writeEntry hc.1 ?_, ?_⟩
  · rw [deliver_seizing hs hc hp, appendEarly_room h]
  · simpa using call_port hc.1
  · rw [show (holding s e _).entry e = _ from entry_writeEntry_at s e e _, if_pos rfl]

theorem deliverAll_room {ds : List Dialled} (hd : ds ≠ []) (h : (b.early.getD []).length + ds.length ≤ 4) :
    s.deliverAll p ds = holding s e (some { b with early := some (b.early.getD [] ++ ds) }) := by
  induction ds generalizing s b with
  | nil => exact absurd rfl hd
  | cons d ds ih =>
    rw [List.length_cons] at h
    obtain ⟨c, early, joined, found⟩ := deliver_room (d := d) hs hc hp (by omega)
    rw [State.deliverAll, List.foldl_cons, joined]
    by_cases hds : ds = []
    · rw [hds, early]
      rfl
    · have next := ih (s := holding s e (some c)) hs found (by rw [early]; exact hp) hds (by
        rw [early]
        simp
        omega)
      refine next.trans ?_
      rw [holding_holding, early]
      simp

theorem deliverAll_full (ds : List Dialled) (h : 4 ≤ (b.early.getD []).length) :
    s.deliverAll p ds = if ds = [] then s else overflowed s ds.length := by
  induction ds generalizing s with
  | nil => rfl
  | cons d ds ih =>
    rw [if_neg (by simp), State.deliverAll, List.foldl_cons, deliver_seizing hs hc hp, appendEarly_full h]
    have next := ih (s := overflowed s 1) hs hc
    refine next.trans ?_
    split
    · next hds => rw [hds]; rfl
    · rw [overflowed_overflowed, List.length_cons, Nat.add_comm]

end

/-! ## The loop (R24, R30, R32) -/

section
variable (fed : (s.port p).sup ≠ .vacant ∧ (s.port p).sup ≠ .parked) (clear : s.storeClearing = false)

theorem exec_loopClosed (p : PortNo) (ms : Nat) (s : State) : exec (.loopClosed p ms) s = execLoopClosed p ms s := rfl

theorem exec_loopOpen (p : PortNo) (s : State) : exec (.loopOpen p) s = execLoopOpen p s := rfl

theorem setLoop_port (s : State) (p : PortNo) (closed : Bool) :
    (s.setLoop p closed).port p = { s.port p with lineClosed := closed } := port_porting s p _

include fed clear

theorem loop_sensed (closed : Bool) : (s.setLoop p closed).senses p = true := by
  unfold State.senses
  rw [setLoop_port, show (s.setLoop p closed).storeClearing = s.storeClearing from rfl, clear]
  simpa using fed_iff.mpr fed

theorem loopClosed_fed (ho : (s.port p).lineClosed = false) (ms : Nat) :
    exec (.loopClosed p ms) s = .next ((s.setLoop p true).closeLoop p ms) := by
  rw [exec_loopClosed, execLoopClosed]
  dsimp only
  rw [if_neg (by simp [ho]), if_pos (loop_sensed fed clear true)]

variable (ho : (s.port p).lineClosed = true)
include ho

/-- A closure being timed is ignored (R30). -/
theorem loopOpen_closure {n : Nat} (hc : (s.port p).classifier = .closure n) :
    exec (.loopOpen p) s = .next (porting s p { s.port p with lineClosed := false, classifier := .atRest }) := by
  rw [exec_loopOpen, execLoopOpen]
  dsimp only
  rw [if_pos ho, if_pos (loop_sensed fed clear false), setLoop_port]
  dsimp only
  rw [hc]
  exact congrArg _ (porting_porting s p _ _)

/-- A break starts (R32). -/
theorem loopOpen_make (hc : (s.port p).classifier = .make) :
    exec (.loopOpen p) s = .next (porting s p { s.port p with lineClosed := false, classifier := .breaking 0 }) := by
  rw [exec_loopOpen, execLoopOpen]
  dsimp only
  rw [if_pos ho, if_pos (loop_sensed fed clear false), setLoop_port]
  dsimp only
  rw [hc]
  exact congrArg _ (porting_porting s p _ _)

end

/-- A line that is not fed is only recorded (R24). -/
theorem loopClosed_unfed (h : (s.port p).sup = .vacant ∨ (s.port p).sup = .parked) (ms : Nat) :
    exec (.loopClosed p ms) s = .next (porting s p { s.port p with lineClosed := true }) := by
  have deaf : (s.setLoop p true).senses p = false := by
    unfold State.senses
    rw [setLoop_port, show ({ s.port p with lineClosed := true } : Port).sup.fed = false from unfed_iff.mpr h]
    rfl
  rw [exec_loopClosed, execLoopClosed]
  dsimp only
  cases closed : (s.port p).lineClosed with
  | true =>
    have same : ({ s.port p with lineClosed := true } : Port) = s.port p := by rw [← closed]
    rw [if_pos rfl, same]
    exact congrArg _ (setPort_self s p).symm
  | false =>
    rw [if_neg (by decide), if_neg (by rw [deaf]; decide)]
    rfl

theorem loopOpen_unfed (h : (s.port p).sup = .vacant ∨ (s.port p).sup = .parked) :
    exec (.loopOpen p) s = .next (porting s p { s.port p with lineClosed := false }) := by
  have deaf : (s.setLoop p false).senses p = false := by
    unfold State.senses
    rw [setLoop_port, show ({ s.port p with lineClosed := false } : Port).sup.fed = false from unfed_iff.mpr h]
    rfl
  rw [exec_loopOpen, execLoopOpen]
  dsimp only
  cases closed : (s.port p).lineClosed with
  | true =>
    rw [if_pos rfl, if_neg (by rw [deaf]; decide)]
    rfl
  | false =>
    have same : ({ s.port p with lineClosed := false } : Port) = s.port p := by rw [← closed]
    rw [if_neg (by decide), same]
    exact congrArg _ (setPort_self s p).symm

/-! ## A loop that closes on a fed port, by what was being timed -/

section
variable {n ms : Nat}

theorem closeLoop_starts (hc : (s.port p).classifier = .atRest) (hk : (s.port p).hook = .on) :
    s.closeLoop p ms = porting s p { s.port p with classifier := .closure 0 } := by
  unfold State.closeLoop
  dsimp only
  rw [hc, hk]
  rfl

variable (hc : (s.port p).classifier = .breaking n)
include hc

theorem closeLoop_glitch (h : n + ms < 15) : s.closeLoop p ms = porting s p { s.port p with classifier := .make } := by
  unfold State.closeLoop
  dsimp only
  rw [hc]
  exact if_pos h

theorem closeLoop_pulse (h : 15 ≤ n + ms) (h' : n + ms < 120) :
    s.closeLoop p ms =
      porting s p { s.port p with classifier := .make, pulses := min ((s.port p).pulses + 1) 11, makeTimer := some 0 } := by
  unfold State.closeLoop
  dsimp only
  rw [hc]
  exact (if_neg (Nat.not_lt.mpr h)).trans (if_pos h')

theorem closeLoop_flash (h : 120 ≤ n + ms) (h' : n + ms < 900) :
    s.closeLoop p ms =
      (porting s p (declared (s.port p) (s.port p).hook .make)).deliverAll p (flashes (s.port p).pulses) := by
  have made : (porting s p { s.port p with classifier := .make }).port p = { s.port p with classifier := .make } :=
    port_porting s p _
  have flashed : s.closeLoop p ms = (porting s p { s.port p with classifier := .make }).flash p := by
    unfold State.closeLoop
    dsimp only
    rw [hc]
    exact (if_neg (show ¬ n + ms < 15 by omega)).trans ((if_neg (Nat.not_lt.mpr h)).trans (if_pos h'))
  rw [flashed, flash_deliverAll (by rw [made]), made, porting_porting]
  rfl

theorem closeLoop_onHook (h : 900 ≤ n + ms) :
    s.closeLoop p ms =
      if ((s.onHook p).port p).sup = .vacant ∨ ((s.onHook p).port p).sup = .parked then s.onHook p
      else porting (s.onHook p) p { (s.onHook p).port p with classifier := .closure 0 } := by
  unfold State.closeLoop
  dsimp only
  rw [hc]
  refine (if_neg (show ¬ n + ms < 15 by omega)).trans ((if_neg (show ¬ n + ms < 120 by omega)).trans
    ((if_neg (Nat.not_lt.mpr h)).trans ?_))
  cases fed : ((s.onHook p).port p).sup.fed with
  | true => rw [if_neg (not_or.mpr (fed_iff.mp fed))]; rfl
  | false => rw [if_pos (unfed_iff.mp fed)]; rfl

end

/-- Settles O43: the port with its new loop is one write, and what the length of the break makes of it a second. -/
theorem loopReports : Obligations.LoopReports := by
  intro s p hq clear
  refine ⟨fun ho ms => congrArg _ (if_pos ho), fun ho => congrArg _ (if_neg (by simp [ho])),
    fun unfed => ⟨loopClosed_unfed unfed, loopOpen_unfed unfed⟩,
    fun hv hk => ⟨fun ho => ?_, fun ho => ⟨fun n hc => loopOpen_closure ⟨hv, hk⟩ clear ho hc,
      loopOpen_make ⟨hv, hk⟩ clear ho⟩⟩⟩
  let t := s.setLoop p true
  have port : t.port p = { s.port p with lineClosed := true } := setLoop_port s p true
  have again (q : Port) : porting t p q = porting s p q := porting_porting s p _ q
  have closes ms : exec (.loopClosed p ms) s = .next (t.closeLoop p ms) := loopClosed_fed ⟨hv, hk⟩ clear ho ms
  simp only [closes]
  refine ⟨fun hc hh ms => ?_, fun n ms hc => ⟨fun h => ?_, fun h h' => ?_, fun h h' => ?_, fun h => ?_⟩⟩
  · rw [closeLoop_starts (by rw [port]; exact hc) (by rw [port]; exact hh), again, port]
  · rw [closeLoop_glitch (by rw [port]; exact hc) h, again, port]
  · rw [closeLoop_pulse (by rw [port]; exact hc) h h', again, port]
  · rw [closeLoop_flash (by rw [port]; exact hc) h h', again, port]
    let u := porting s p (declared { s.port p with lineClosed := true } (s.port p).hook .make)
    have sup : (u.port p).sup = (s.port p).sup := by
      rw [show u.port p = _ from port_porting s p _]
      rfl
    refine ⟨fun hs => congrArg _ (deliverAll_unbound (s := u) (sup ▸ hs) _), fun e b hs hh hp => ?_,
      fun e b hs hh hp => congrArg _ (deliverAll_clearing (s := u) (sup.trans hs) hh hp _), fun e b hs hh hp v hv ds hds => ?_⟩
    · rw [deliverAll_speaking (s := u) (sup.trans hs) hh hq.2 hp]
      unfold flashes
      split <;> rfl
    · have yielded : flashes ({ s.port p with lineClosed := true } : Port).pulses = ds := hds.symm
      have hs : (u.port p).sup = .bound := sup.trans hs
      have hh : Holds u p e b := hh
      subst hv
      rw [yielded]
      refine ⟨fun room => ?_, fun three one => ?_, fun full => ?_⟩
      · have some : ds ≠ [] := by rw [hds]; split <;> simp
        rw [deliverAll_room hs hh hp some room]
      · rw [if_pos one] at hds
        obtain ⟨c, early, joined, found⟩ := deliver_room (d := .digit .bad) hs hh hp (by omega)
        have full : 4 ≤ (c.early.getD []).length := by rw [early]; simp [three]
        have second : (holding u e (some c)).deliver p .flash = overflowed (holding u e (some c)) 1 := by
          rw [deliver_seizing (s := holding u e (some c)) hs found (by rw [early]; exact hp), appendEarly_full full]
        rw [hds, State.deliverAll, List.foldl_cons, List.foldl_cons, List.foldl_nil, joined, second, early]
        rfl
      · rw [deliverAll_full hs hh hp ds full, if_neg (by rw [hds]; split <;> simp)]
        rfl
  · have breaks : (t.port p).classifier = .breaking n := by rw [port]; exact hc
    refine ⟨fun hs => ?_, t.onHook p, exec_onHookDeclared breaks, by rw [closeLoop_onHook breaks h]⟩
    have sup : (t.port p).sup = (s.port p).sup := by rw [port]
    have silent : t.onHook p = porting s p (declared { s.port p with lineClosed := true } .on .atRest) := by
      rw [onHook_silent, again, port] <;> rw [sup] <;> rcases hs with hs | hs <;> rw [hs] <;> decide
    rw [closeLoop_onHook breaks h, silent, port_porting, if_neg (by exact not_or.mpr ⟨hv, hk⟩), porting_porting]
    rfl

end Sys2Proof.Machine
end

section
/-!
PROOFS. Expiries.lean: the expiries of the phase timers and of T_wait (O48).
-/
namespace Sys2Proof.Machine

open Sys2Proof.Safety

variable {s : State} {p : PortNo} {e : EntryNo} {b : Binding}

theorem onExpiry_named {runs : Binding → Bool} (n : Named s b.handle e b) (hr : runs b = true)
    (take : EntryNo → Binding → State → State) : s.onExpiry b.handle runs take = take e b s := by
  obtain ⟨found, good⟩ := n
  unfold State.onExpiry
  rw [found]
  simp [hr, good]

theorem onExpiry_idle {runs : Binding → Bool} {h : Nat} (hr : ∀ e b, s.byHandle h = some (e, b) → runs b = false)
    (take : EntryNo → Binding → State → State) : s.onExpiry h runs take = s := by
  unfold State.onExpiry
  split
  · rfl
  · next e b found => rw [if_neg (by simp [hr e b found])]

/-- A call that rings or waits to ring enters CLEARING: its CLEAR leaves, and the budget pass follows (R84, R129). -/
theorem enterClearing_passes (hn : ¬ NotRinging s b.handle) (c : Cause) {move : State → State} {q : Port}
    (hm : ∀ t : State, t.port b.port = { s.port b.port with injector := .idle } → move t = porting t b.port q) :
    s.enterClearing e b c move =
      (telling (unringing (holding (porting s b.port q) e (some (inClearing s b))) b.handle)
        [.clear b.handle c b.meterCount]).budgetPass := by
  let t : State := { holding s e (some (inClearing s b)) with out := said s [.clear b.handle c b.meterCount] }
  have told : s.sendNow (.clear b.handle c b.meterCount) = telling s [.clear b.handle c b.meterCount] := rfl
  have moved : move (t.stopInjector b.port) = porting t b.port q :=
    (hm (t.stopInjector b.port) (port_porting s b.port _)).trans (porting_porting t b.port _ q)
  have rings : ¬ NotRinging (porting t b.port q) b.handle := hn
  unfold State.enterClearing State.clearingEffects
  dsimp only
  rw [told, telling_eq, telling_eq, show State.writeEntry _ e _ = t from rfl, moved, leaveRinging_some _ rings]
  rfl

theorem toIdle_fed (h : (s.port b.port).sup = .bound) (t : State)
    (ht : t.port b.port = { s.port b.port with injector := .idle }) :
    t.toIdle b.port = porting t b.port (idled { s.port b.port with injector := .idle }) := by
  rw [State.toIdle_eq (by rw [ht]; show (s.port b.port).sup.fed = true; rw [h]; rfl), ht]

theorem place_lockout (h : (s.port b.port).sup = .bound) (t : State)
    (ht : t.port b.port = { s.port b.port with injector := .idle }) :
    t.place b.port .lockout = porting t b.port { s.port b.port with sup := .lockout, injector := .idle } := by
  have fed : (t.port b.port).sup.fed = true := by
    rw [ht]
    show (s.port b.port).sup.fed = true
    rw [h]
    rfl
  unfold State.place
  rw [place_fed fed rfl, ht]
  rfl

/-- With L within A and an empty queue a pass has nothing to do, whatever has left before (R124). -/
theorem budgetPass_settled {t : State} (within : t.committed ≤ t.available) (empty : t.ringQueue = []) (ms : List Message) :
    (telling t ms).budgetPass = telling t ms := by
  rw [telling_eq]
  refine budgetPass_over (s := { t with out := said t ms }) (fun x => absurd x.1 (Nat.not_lt.mpr within)) fun q hq => ?_
  rw [show ({ t with out := said t ms } : State).ringQueue = [] from empty] at hq
  cases hq

theorem lastToRing_empty {k : Nat} (h : LastToRing s k) : (unringing s k).ringQueue = [] :=
  List.filter_eq_nil_iff.mpr fun q hq => by simp [h.2 q hq]

theorem exec_tAcceptExpiry (h : Nat) (s : State) :
    exec (.tAcceptExpiry h) s = .next (s.onExpiry h Binding.acceptRuns fun e b s =>
      s.enterClearing e b .noGrant fun t => t.place b.port .lockout) := rfl

theorem exec_tRingwaitExpiry (h : Nat) (s : State) :
    exec (.tRingwaitExpiry h) s = .next (s.onExpiry h Binding.ringwaitRuns fun e b s =>
      { s with counters := { s.counters with ringwaitTimeouts := bump s.counters.ringwaitTimeouts } }.enterClearing e b
        .noRingPower fun t => t.toIdle b.port) := rfl

theorem exec_tRingmaxExpiry (h : Nat) (s : State) :
    exec (.tRingmaxExpiry h) s = .next (s.onExpiry h Binding.ringmaxRuns fun e b s =>
      s.enterClearing e b .noAnswer fun t => t.toIdle b.port) := rfl

theorem exec_tReleaseExpiry (h : Nat) (s : State) :
    exec (.tReleaseExpiry h) s = .next (s.onExpiry h Binding.releaseRuns fun e b s =>
      { s with counters := { s.counters with releaseTimeouts := bump s.counters.releaseTimeouts } }.retire e b) := rfl

/-- Settles O48: each expiry enters CLEARING with its own cause, and an expiry of another phase is none. -/
theorem timersRunOut : Obligations.TimersRunOut := by
  refine ⟨fun s e b n hs => ⟨fun hp ht hn => ?_, fun hn u hu => ⟨fun hp ht t htt => ?_, fun hp ht t htt => ?_⟩⟩,
    fun s p hw hs => ?_, fun s h hp => ?_⟩
  · rw [exec_tAcceptExpiry, onExpiry_named n (by simp [Binding.acceptRuns, hp, ht]),
      enterClearing_eq hn .noGrant (place_lockout hs)]
  · let c : State := { s with
      counters := { s.counters with ringwaitTimeouts := min (s.counters.ringwaitTimeouts + 1) 65535 } }
    have passes := enterClearing_passes (s := c) (e := e) hn .noRingPower (toIdle_fed (s := c) hs)
    have told : exec (.tRingwaitExpiry b.handle) s = .next t.budgetPass := by
      rw [exec_tRingwaitExpiry, onExpiry_named n (by simp [Binding.ringwaitRuns, hp, ht]), htt, hu]
      exact congrArg _ passes
    refine ⟨told, fun last => ?_⟩
    rw [told, htt]
    exact congrArg _ (budgetPass_settled (by rw [hu]; exact last.1) (by rw [hu]; exact lastToRing_empty last) _)
  · have passes := enterClearing_passes (s := s) (e := e) hn .noAnswer (toIdle_fed hs)
    have told : exec (.tRingmaxExpiry b.handle) s = .next t.budgetPass := by
      rw [exec_tRingmaxExpiry, onExpiry_named n (by rcases hp with hp | hp <;> simp [Binding.ringmaxRuns, hp, ht]), htt, hu]
      exact congrArg _ passes
    refine ⟨told, fun last => ?_⟩
    rw [told, htt]
    exact congrArg _ (budgetPass_settled (by rw [hu]; exact last.1) (by rw [hu]; exact lastToRing_empty last) _)
  · have fed : (s.port p).sup.fed = true := by rw [hs]; rfl
    show Host.Outcome.next (if s.waiting p = true then _ else s) = _
    rw [if_pos hw]
    exact congrArg (fun q => Host.Outcome.next
      { porting s p q with
        owq := s.owq.filter fun w => !decide (w.port = p)
        counters := { s.counters with waitTimeouts := min (s.counters.waitTimeouts + 1) 65535 } }) (place_fed (st := .lockout) fed rfl)
  · have phase {e : EntryNo} {b : Binding} (h : s.byHandle h = some (e, b)) : b.phase = .dialling ∨ b.phase = .connected := by
      simpa using hp e b h
    refine ⟨?_, ?_, ?_, ?_⟩
    · rw [exec_tAcceptExpiry, onExpiry_idle fun e b h => ?_]
      rcases phase h with h | h <;> simp [Binding.acceptRuns, h]
    · rw [exec_tRingwaitExpiry, onExpiry_idle fun e b h => ?_]
      rcases phase h with h | h <;> simp [Binding.ringwaitRuns, h]
    · rw [exec_tRingmaxExpiry, onExpiry_idle fun e b h => ?_]
      rcases phase h with h | h <;> simp [Binding.ringmaxRuns, h]
    · rw [exec_tReleaseExpiry, onExpiry_idle fun e b h => ?_]
      rcases phase h with h | h <;> simp [Binding.releaseRuns, h]

end Sys2Proof.Machine
end

section
/-!
PROOFS. Allocation.lean: the slot that an allocation finds (R51), the entry and the handle of a new binding (R67), and the
binding that an off-hook or OWQ service creates (R71).
-/
namespace Sys2Proof.Machine

open Sys2Proof.Safety

variable {s : State} {c : LineClass} {n : SlotNo} {e : EntryNo} {p : PortNo}

/-! ## The slot -/

theorem suspectAtUse_pool (s : State) (n : SlotNo) (k : Nat) :
    (s.suspectAtUse n k).pool = s.pool.filter fun m => !decide (m = n) :=
  congrArg Tables.pool (suspectAtUse_tables s n k)

theorem suspectAtUse_shorter (h : n ∈ s.pool) (k : Nat) : (s.suspectAtUse n k).pool.length < s.pool.length := by
  rw [suspectAtUse_pool]
  exact List.length_filter_lt_length_iff_exists.2 ⟨n, h, by simp⟩

/-- An allocation with fuel beyond the length of the pool ends as it does with any more. -/
theorem allocate_fuel {fuel more : Nat} (h : s.pool.length < fuel) (h' : s.pool.length < more) :
    s.allocate c fuel = s.allocate c more := by
  induction fuel generalizing s more with
  | zero => omega
  | succ fuel ih =>
    obtain ⟨more, rfl⟩ : ∃ k, more = k + 1 := ⟨more - 1, by omega⟩
    unfold State.allocate
    split
    · split
      · next n rest hp =>
        have := suspectAtUse_shorter (s := s) (n := n) (by simp [hp]) 0
        split
        · exact ih (by omega) (by omega)
        · rfl
      · rfl
    · rfl

theorem admitSlot_none (h : ¬ Admits s c) : s.admitSlot c = (s, none) := by
  have refused : s.admitted c = false := by rwa [← Bool.not_eq_true, admitted_iff]
  simp [State.admitSlot, State.allocate, refused]

theorem admitSlot_head (h : Admits s c) (hp : s.pool.head? = some n) :
    s.admitSlot c =
      if (s.slot n).damaged then (s.suspectAtUse n 0).allocate c s.pool.length else (s, some n) := by
  obtain ⟨rest, pool⟩ := List.head?_eq_some_iff.mp hp
  rw [State.admitSlot, State.allocate, if_pos ((admitted_iff s c).mpr h)]
  split
  · next m _ hm =>
    rw [pool] at hm
    cases hm
    rfl
  · next hm => simp [pool] at hm

theorem admitSlot_good (h : Admits s c) (hp : s.pool.head? = some n) (hd : (s.slot n).damaged = false) :
    s.admitSlot c = (s, some n) := by
  rw [admitSlot_head h hp, hd]
  rfl

/-- A damaged slot at the pool head is put out of use, and the allocation begins again (R51). -/
theorem admitSlot_damaged (h : Admits s c) (hp : s.pool.head? = some n) (hd : (s.slot n).damaged = true) :
    s.admitSlot c = (s.suspectAtUse n 0).admitSlot c := by
  rw [admitSlot_head h hp, hd, if_pos rfl]
  have := suspectAtUse_shorter (s := s) (List.mem_of_mem_head? hp) 0
  exact allocate_fuel (by omega) (by omega)

/-! ## The entry, and the binding in it -/

theorem emptyEntry_eq (he : (s.entry e).binding = none) (least : ∀ f : EntryNo, f < e → (s.entry f).binding ≠ none) :
    s.emptyEntry = some e := by
  unfold State.emptyEntry allEntries
  refine List.find?_eq_some_iff_getElem.mpr ⟨by simp [he], e.val, by simp, by simp, fun j hj => ?_⟩
  have := least ⟨j, by omega⟩ hj
  simpa [Option.isSome_iff_ne_none] using this

/-- A binding created on this slot, in this entry, but for its message (R51, R67). -/
def boundTo (s : State) (p : PortNo) (n : SlotNo) (e : EntryNo) (b : Binding) : State :=
  { s with
    pool := s.pool.filter fun m => !decide (m = n)
    slots := s.slots.set n { state := .bound, handle := b.handle, blockPending := false, damaged := false }
    entries := s.entries.set e { binding := some b, damaged := false }
    nextHandle := nextOf b.handle
    ports := s.ports.set p { s.port p with sup := .bound } }

theorem create_bound (make : Nat → Binding) (andThen : Binding → State → State) (he : (s.entry e).binding = none)
    (least : ∀ f : EntryNo, f < e → (s.entry f).binding ≠ none) (hf : (s.port p).sup.fed = true) :
    s.create n make p andThen = andThen (make s.chooseHandle) (boundTo s p n e (make s.chooseHandle)) := by
  rw [create_eq _ _ _ _ _ (emptyEntry_eq he least), place_fed hf rfl]
  rfl

/-- The binding of an origination is created, and its SEIZE is sent (R71). -/
theorem seize_voice (held : Bool) (a b : List Message) (he : (s.entry e).binding = none)
    (least : ∀ f : EntryNo, f < e → (s.entry f).binding ≠ none) (hf : (s.port p).sup.fed = true) :
    (voice held s a b).seize p n =
      voice held (boundTo s p n e (s.originating p n s.chooseHandle)) a
        (b ++ [.seize s.chooseHandle (slotNumber n) p (s.line p).key]) :=
  (create_bound (s := voice held s a b) _ _ he least hf).trans (voice_send held (s := boundTo s p n e _) a b _)

end Sys2Proof.Machine
end

section
/-!
PROOFS. Offers.lean: OFFER, its refusals and the binding it makes (O19, O21).
-/
namespace Sys2Proof.Machine

open Sys2Proof.Safety

variable {s u : State} {p : PortNo} {n m : SlotNo} {e : EntryNo} {tag : Nat} {a : Address} {c : Option Nat}
  {k : LineClass}

theorem exec_offer (tag : Nat) (a : Address) (c : Option Nat) (s : State) :
    exec (.offer tag a c) s = execOffer tag a c s := rfl

theorem admits_priority (s : State) : Admits s .priority ↔ 1 ≤ s.pool.length := by simp [Admits]

theorem admits_ordinary (s : State) : Admits s .ordinary ↔ s.params.reserve < s.pool.length := by simp [Admits]

/-! ## The checks of R77, one by one -/

theorem offer_withdrawn (hl : Listening s) (ha : s.resolve a = .port p) (na : a ≠ .cursor)
    (hw : (s.line p).withdrawn = true) :
    exec (.offer tag a c) s = .next (s.taken.refuseOffer tag .quarantined).release := by
  rw [exec_offer, execOffer, takeMessage_listening hl]
  simp only [resolveNoCursor_eq na, taken_resolve, ha, taken_line, hw, if_true]

theorem offer_damaged (hl : Listening s) (ha : s.resolve a = .port p) (na : a ≠ .cursor)
    (hw : (s.line p).withdrawn = false) (hd : (s.line p).damaged = true) :
    exec (.offer tag a c) s = .next ((s.taken.lineActions p).refuseOffer tag .storeFault).release := by
  rw [exec_offer, execOffer, takeMessage_listening hl]
  simp only [resolveNoCursor_eq na, taken_resolve, ha, taken_line, hw, hd, if_true, Bool.false_eq_true, if_false]

/-- A record in use is looked at for its status (R77, checks 3 to 5). -/
theorem offer_inUse (hl : Listening s) (ha : s.resolve a = .port p) (na : a ≠ .cursor) (hr : InUse s p) :
    exec (.offer tag a c) s = .next
      (match (s.line p).status with
        | .vacant => s.taken.refuseOffer tag .vacant
        | .ceasing => s.taken.refuseOffer tag .vacant
        | .fullbar => s.taken.refuseOffer tag .barred
        | _ => s.taken.offerPort tag p c).release := by
  rw [exec_offer, execOffer, takeMessage_listening hl]
  simp only [resolveNoCursor_eq na, taken_resolve, ha, taken_line, hr.1, hr.2, Bool.false_eq_true, if_false] <;> rfl

theorem offer_toPort (hl : Listening s) (ha : s.resolve a = .port p) (na : a ≠ .cursor) (hr : InUse s p)
    (hs : (s.line p).status = .active ∨ (s.line p).status = .outbar) :
    exec (.offer tag a c) s = .next (s.taken.offerPort tag p c).release := by
  rw [offer_inUse hl ha na hr]
  rcases hs with hs | hs <;> rw [hs]

/-- An idle port without a call is offered a slot (R77, check 9). -/
theorem offerPort_idle (hs : (s.port p).sup = .idle) (hc : s.hasClearing p = false) :
    s.offerPort tag p c =
      match s.admitSlot (s.line p).cls with
      | (t, none) => t.countNoSlot.refuseOffer tag .noSlot
      | (t, some n) => t.bindOffer tag p n c := by
  unfold State.offerPort
  rw [hs, hc]
  rfl

theorem refuse_taken (hl : Listening s) (hq : Quiet s) (r : Code) :
    (s.taken.refuseOffer tag r).release = answering s [.refused tag r] := reply_taken hl hq _

/-- The port refuses the OFFER for its state, or for a call in CLEARING (R77, checks 6 to 8). -/
theorem offerPort_busy
    (h : (s.port p).sup ∉ [.test, .parked, .idle] ∨ ((s.port p).sup = .idle ∧ s.hasClearing p = true)) :
    s.offerPort tag p c = s.refuseOffer tag .lineBusy := by
  unfold State.offerPort
  rcases h with h | ⟨hs, hc⟩
  · split <;> simp_all
  · rw [hs, hc]
    rfl

/-- The head of the pool, found damaged as the OFFER asks for a slot, leaves its report behind the reply (R51, R178). -/
theorem admitSlot_taken (hq : Quiet s) (hk : Admits s k) (hp : s.pool.head? = some m) (hd : (s.slot m).damaged = true) :
    s.taken.admitSlot k =
      (voice true (slotLost { s with assembly := [] } m) [] [.integrity .slot (m.val + 1) 0]).admitSlot k := by
  rw [admitSlot_damaged (s := s.taken) hk hp hd, taken_voice hq, suspectAtUse_voice]
  rfl

/-! ## The binding of an OFFER -/

theorem bindOffer_voice (u : State) (x y : List Message) (he : (u.entry e).binding = none)
    (least : ∀ f : EntryNo, f < e → (u.entry f).binding ≠ none) (hf : (u.port p).sup.fed = true) :
    (voice true u x y).bindOffer tag p n c =
      (offerBound (voice false u (x ++ .bound tag u.chooseHandle (n.val + 1) :: y) []) p c n e).budgetPass := by
  have entry : (voice true u x y).emptyEntry = some e := emptyEntry_eq he least
  unfold State.bindOffer
  dsimp only
  rw [entry, if_neg (by simp), create_bound (s := voice true u x y) _ _ he least hf]
  have told (t : State) (h : Nat) : (voice true t x y).reply (.bound tag h (slotNumber n)) =
      voice false t (x ++ .bound tag h (slotNumber n) :: y) [] := voice_reply x y _
  have joined (k : CadenceNo) := congrArg (fun t : State => { t with
    ringQueue := t.ringQueue ++
      [({ handle := u.chooseHandle, port := p, cadence := k, load := (u.line p).load } : QueueEntry)] })
    (told (boundTo u p n e (u.terminating p n k u.chooseHandle)) u.chooseHandle)
  refine congrArg State.budgetPass ?_
  cases c with
  | none => exact joined (u.line p).cadence
  | some v => exact joined (clampCadence v)

theorem quiet_offerBound (hq : Quiet u) : Quiet (offerBound u p c n e).budgetPass :=
  quiet_budgetPass (quiet_out rfl hq)

/-- Settles O19: each check of R77 that fails answers alone, and only the last two find damage. -/
theorem offerRefused : Obligations.OfferRefused := by
  intro s tag a p c hl hq ha na
  refine ⟨fun hw => ?_, fun hr => ⟨fun hs => ?_, fun hs => ?_, fun hs => ⟨fun ht => ?_, fun ht => ?_, fun ht => ?_,
    fun idle hc full => ?_, fun n idle hc hk hp hd out => ?_⟩⟩, fun hd hw hc => ?_⟩
  · rw [offer_withdrawn hl ha na hw, refuse_taken hl hq]
  · rw [offer_inUse hl ha na hr]
    rcases hs with hs | hs <;> rw [hs] <;> exact congrArg _ (refuse_taken hl hq _)
  · rw [offer_inUse hl ha na hr, hs]
    exact congrArg _ (refuse_taken hl hq _)
  · rw [offer_toPort hl ha na hr hs, State.offerPort, taken_port, ht]
    exact congrArg _ (refuse_taken hl hq _)
  · rw [offer_toPort hl ha na hr hs, State.offerPort, taken_port, ht]
    exact congrArg _ (refuse_taken hl hq _)
  · rw [offer_toPort hl ha na hr hs, offerPort_busy (s := s.taken) ht, refuse_taken hl hq]
  · have refused : ¬ Admits s (s.line p).cls := by
      rcases full with ⟨h, short⟩ | ⟨h, short⟩
      · rw [h, admits_priority]
        omega
      · rw [h, admits_ordinary]
        omega
    rw [offer_toPort hl ha na hr hs, offerPort_idle (s := s.taken) idle hc, taken_line,
      admitSlot_none (s := s.taken) refused]
    exact congrArg _ (refuse_taken (s := s.countNoSlot) hl hq _)
  · rw [offer_toPort hl ha na hr hs, offerPort_idle (s := s.taken) idle hc, taken_line, admitSlot_taken hq hk hp hd,
      admitSlot_none (s := voice true (slotLost { s with assembly := [] } n) [] _) out]
    have told := (congrArg State.release (voice_reply (s := (slotLost { s with assembly := [] } n).countNoSlot) []
      [.integrity .slot (n.val + 1) 0] (.refused tag .noSlot))).trans (release_quiet quiet_voice)
    exact congrArg _ (told.trans (voice_answered hl hq (fun x => (slotLost x n).countNoSlot)
      (x := [.refused tag .noSlot, .integrity .slot (n.val + 1) 0]) (y := []) rfl))
  · rw [offer_damaged hl ha na hw hd, taken_voice hq,
      lineActions_idle (s := { s with assembly := [] }) true _ _ (clearing_of_none hc)]
    have told := (congrArg State.release (voice_reply (s := quarantining { s with assembly := [] } p) []
      [.integrity .line p.val 0] (.refused tag .storeFault))).trans (release_quiet quiet_voice)
    exact congrArg _ (told.trans (voice_answered hl hq (quarantining · p)
      (x := [.refused tag .storeFault, .integrity .line p.val 0]) (y := []) rfl))

/-- Settles O21: the slot found, the reply is the last thing said before the budget pass. -/
theorem offerBinds : Obligations.OfferBinds := by
  intro s tag a p c n e hl hq ha na hr hs idle hc he least
  have fed : (s.port p).sup.fed = true := by rw [idle]; rfl
  refine ⟨fun hp hd hk => ?_, fun m hm hd hk u hu hp hg hk' => ?_⟩
  · have admits : Admits s (s.line p).cls := by
      have := List.length_pos_of_mem (List.mem_of_mem_head? hp)
      cases hcls : (s.line p).cls with
      | ordinary => exact (admits_ordinary s).mpr (hk.resolve_left (by simp [hcls]))
      | priority => exact (admits_priority s).mpr this
    rw [offer_toPort hl ha na hr hs, offerPort_idle (s := s.taken) idle hc, taken_line,
      admitSlot_good (s := s.taken) admits hp hd, taken_voice hq]
    dsimp only
    rw [bindOffer_voice (e := e) { s with assembly := [] } _ _ he least fed,
      release_quiet (quiet_offerBound quiet_voice)]
    exact congrArg (fun t => Host.Outcome.next (offerBound t p c n e).budgetPass) (voice_answering _ [] hl.1 hq)
  · subst hu
    rw [offer_toPort hl ha na hr hs, offerPort_idle (s := s.taken) idle hc, taken_line, admitSlot_taken hq hk hm hd,
      admitSlot_good (s := voice true (slotLost { s with assembly := [] } m) [] _) hk' hp hg]
    dsimp only
    rw [bindOffer_voice (e := e) (slotLost { s with assembly := [] } m) _ _ he least fed,
      release_quiet (quiet_offerBound quiet_voice)]
    exact congrArg (fun t => Host.Outcome.next (offerBound t p c n e).budgetPass)
      (voice_answering (s := slotLost s m) _ [] hl.1 hq)

end Sys2Proof.Machine
end

section
/-!
PROOFS. WaitingLines.lean: OWQ service, one entry at a time (O28).
-/
namespace Sys2Proof.Machine

open Sys2Proof.Safety

variable {s t : State} {p q : PortNo} {n : SlotNo} {e : EntryNo} {fuel : Nat} {ps passed rest : List PortNo}

/-! ## One entry of a scan -/

theorem serviceScan_passes (h : ∀ q ∈ ps, PassedOver s q) (fuel : Nat) (rest : List PortNo) :
    s.serviceScan (fuel + ps.length) (ps ++ rest) = s.serviceScan fuel rest := by
  induction ps with
  | nil => rfl
  | cons q ps ih =>
    rw [List.length_cons, ← Nat.add_assoc, List.cons_append, serviceScan_pass (h q (by simp)),
      ih fun q hq => h q (by simp [hq])]

/-- A port that does not wait, or a link that is not UP, leaves the entry where it is (R99). -/
theorem serviceScan_skip (h : s.waiting p = false ∨ s.link ≠ .up) (fuel : Nat) (rest : List PortNo) :
    s.serviceScan (fuel + 1) (p :: rest) = s.serviceScan fuel rest := by
  by_cases he : s.pool = []
  · rw [serviceScan_empty he, serviceScan_empty he]
  · rw [State.serviceScan, if_neg he]
    rcases h with h | h <;> simp [h]

/-- A good record is offered the slot at the pool head (R51, R99). -/
theorem serviceScan_reads (hw : s.waiting p = true) (hl : s.link = .up) (hc : s.hasClearing p = false) (hr : InUse s p)
    (fuel : Nat) (rest : List PortNo) :
    s.serviceScan (fuel + 1) (p :: rest) =
      match s.admitSlot (s.line p).cls with
      | (t, none) => t.serviceScan fuel rest
      | (t, some n) =>
        ((t.leaveQueue p).seize p n).serviceScan fuel (((t.leaveQueue p).seize p n).owq.map (·.port)) := by
  obtain ⟨used, good⟩ := hr
  by_cases he : s.pool = []
  · have refused : ¬ Admits s (s.line p).cls := by simp [Admits, he]
    rw [serviceScan_empty he, admitSlot_none refused]
    exact (serviceScan_empty he _ _).symm
  · rw [State.serviceScan, if_neg he]
    simp only [hw, hl, hc, used, good] <;> rfl

theorem serviceScan_damaged (hp : s.pool ≠ []) (hw : s.waiting p = true) (hl : s.link = .up) (hc : s.hasClearing p = false)
    (used : (s.line p).withdrawn = false) (hd : (s.line p).damaged = true) (fuel : Nat) (rest : List PortNo) :
    s.serviceScan (fuel + 1) (p :: rest) = (s.lineActions p).serviceScan fuel rest := by
  rw [State.serviceScan, if_neg hp]
  simp [hw, hl, hc, used, hd]

/-! ## A port that has left the queue -/

theorem not_waiting_of_sublist (h : t.owq.Sublist s.owq) (hw : s.waiting p = false) : t.waiting p = false := by
  unfold State.waiting at *
  rw [List.any_eq_false] at *
  exact fun w hm => hw w (h.subset hm)

theorem scanCost_le (ho : t.owq.length ≤ s.owq.length) (hr : rest.length ≤ ps.length) : scanCost t rest ≤ scanCost s ps :=
  Nat.add_le_add hr (Nat.mul_le_mul ho (Nat.succ_le_succ ho))

/-- A scan does not look at a port that does not wait. -/
theorem serviceScan_filter (hw : s.waiting p = false) (hf : scanCost s ps < fuel) :
    s.serviceScan fuel ps = s.serviceScan fuel (ps.filter fun q => !decide (q = p)) := by
  induction fuel generalizing s ps with
  | zero => omega
  | succ fuel ih =>
    cases ps with
    | nil => rfl
    | cons q rest =>
      have cheaper : scanCost s rest < fuel := by
        simp only [scanCost, List.length_cons] at hf ⊢
        omega
      by_cases hq : q = p
      · subst hq
        have short : (rest.filter fun x => !decide (x = q)).length ≤ rest.length := List.length_filter_le _ _
        have cost := scanCost_le (s := s) (t := s) (Nat.le_refl _) short
        rw [serviceScan_skip (.inl hw), ih hw cheaper, List.filter_cons_of_neg (by simp)]
        exact serviceScan_fuel s (by omega) (by omega)
      · have next (t : State) (ht : t.owq.Sublist s.owq) :
            t.serviceScan fuel rest = t.serviceScan fuel (rest.filter fun q => !decide (q = p)) :=
          ih (not_waiting_of_sublist ht hw)
            (Nat.lt_of_le_of_lt (scanCost_le ht.length_le (Nat.le_refl _)) cheaper)
        rw [List.filter_cons_of_pos (by simp [hq])]
        unfold State.serviceScan
        split
        · rfl
        iterate 4
          split
          · exact next s (.refl _)
        split
        · exact next _ (owq_lineActions s q)
        have queue := owq_admitSlot s (s.line q).cls
        split
        · next t found =>
          rw [found] at queue
          exact next t (queue ▸ .refl _)
        · rfl

/-! ## Service from the oldest entry on -/

/-- Service passes over entries and comes to the next with fuel to spare. -/
theorem service_from (hs : s.owq.map (·.port) = passed ++ ps) (hp : ∀ q ∈ passed, PassedOver s q)
    (hf : scanCost s ps < fuel) : s.service = s.serviceScan fuel ps := by
  have all : s.service = s.serviceScan (fuel + passed.length) (passed ++ ps) := by
    rw [← hs]
    refine (serviceScan_service s ?_).symm
    rw [hs]
    simp only [scanCost, List.length_append] at hf ⊢
    omega
  rw [all, serviceScan_passes hp]

theorem service_skips (h : ∀ q ∈ s.owq.map (·.port), PassedOver s q) : s.service = s :=
  service_from (ps := []) (List.append_nil _).symm h (Nat.lt_succ_self _)

theorem waiting_of_mem (h : p ∈ s.owq.map (·.port)) : s.waiting p = true := by
  obtain ⟨w, hw, rfl⟩ := List.mem_map.mp h
  exact List.any_eq_true.mpr ⟨w, hw, by simp⟩

theorem serviceScan_down (hl : s.link ≠ .up) (fuel : Nat) (ps : List PortNo) : s.serviceScan fuel ps = s := by
  induction ps generalizing fuel with
  | nil => cases fuel <;> rfl
  | cons p ps ih =>
    cases fuel with
    | zero => rfl
    | succ fuel => rw [serviceScan_skip (.inr hl), ih]

theorem owq_filter (s : State) (p : PortNo) :
    (s.owq.filter fun w => !decide (w.port = p)).map (·.port) = (s.owq.map (·.port)).filter fun q => !decide (q = p) := by
  rw [List.filter_map]
  rfl

/-- The entry of a port that another port's failure leaves alone is passed over as before. -/
theorem passedOver_quarantining (hq : q ≠ p) (h : PassedOver s q) : PassedOver (quarantining s p) q := by
  have apart : p.val ≠ q.val := fun x => hq (Fin.ext x.symm)
  have line : (quarantining s p).line q = s.line q := Vector.getElem_set_ne p.isLt q.isLt apart
  unfold PassedOver InUse
  rw [line]
  exact h

/-- Once an entry is served the queue is shorter, and the scan that starts again at its head is service (R101). -/
theorem serviceScan_restarts {u : State} (h : u.owq.length < s.owq.length) (hf : scanCost s ps ≤ fuel) :
    u.serviceScan fuel (u.owq.map (·.port)) = u.service := by
  refine serviceScan_service u ?_
  have shorter : u.owq.length * (u.owq.length + 1 + 1) ≤ u.owq.length * (s.owq.length + 1) := Nat.mul_le_mul_left _ (by omega)
  have fewer : (u.owq.length + 1) * (s.owq.length + 1) ≤ s.owq.length * (s.owq.length + 1) := Nat.mul_le_mul_right _ h
  rw [Nat.mul_succ] at shorter
  rw [Nat.succ_mul] at fewer
  simp only [scanCost, List.length_map] at hf ⊢
  omega

/-- A failed slot leaves fewer free ones, so what was passed over still is. -/
theorem passedOver_slotLost (h : PassedOver s q) : PassedOver (slotLost s n) q := by
  have shrunk : (slotLost s n).pool.length ≤ s.pool.length := List.length_filter_le _ _
  refine h.imp id fun ⟨used, refused⟩ => ⟨used, fun admits => refused ?_⟩
  exact admits.imp (And.imp_right fun some => Nat.le_trans some shrunk) (And.imp_right fun more => Nat.lt_of_lt_of_le more shrunk)

/-- Settles O28: the entries before the oldest that qualifies are passed over, and each of the three moves at that entry
leaves a scan that is service begun afresh. -/
theorem serviceServes : Obligations.ServiceServes := by
  refine ⟨fun s h => ?_, fun s passed rest p n hq hl queue passes hc hp => ?_⟩
  · rcases h with h | h | h | h
    · rw [State.service, h]
      rfl
    · exact serviceScan_empty h _ _
    · exact serviceScan_down h _ _
    · refine service_skips fun q hq => ?_
      obtain ⟨w, hw, rfl⟩ := List.mem_map.mp hq
      exact h w hw
  have waits : s.waiting p = true := waiting_of_mem (by rw [queue]; simp)
  have free : s.pool ≠ [] := List.ne_nil_of_mem (List.mem_of_mem_head? hp)
  rw [service_from queue passes (Nat.lt_succ_self _)]
  refine ⟨fun e hr hk hd sup he least => ?_, fun hd used hn => ?_, fun hr hk hd => ?_⟩
  · have fed : (s.port p).sup.fed = true := by rw [sup]; rfl
    have bound := (seize_voice (s := s.leaveQueue p) (p := p) (n := n) false [] [] he least fed).trans
      (voice_telling (s := boundTo (s.leaveQueue p) p n e _) _ _ hq)
    rw [voice_begin (s := s.leaveQueue p) hq, telling, if_pos (by exact hl)] at bound
    rw [serviceScan_reads waits hl hc hr, admitSlot_good hk hp hd]
    dsimp only
    rw [serviceScan_restarts (s := s) (by rw [owq_seize]; exact leaveQueue_shorter waits) (Nat.le_refl _)]
    exact congrArg State.service bound
  · have lost := lineActions_idle (s := s) false [] [] (clearing_of_none hn)
    rw [voice_begin hq] at lost
    have said : voice false (quarantining s p) [] [.integrity .line p.val 0] =
        quarantining (telling s [.integrity .line p.val 0]) p :=
      congrArg (quarantining · p) (voice_telling (s := s) [] _ hq)
    rw [serviceScan_damaged free waits hl hc used hd, lost, List.nil_append, ← said]
    generalize hu : voice false (quarantining s p) [] [.integrity .line p.val 0] = u
    have left : u.owq = s.owq.filter fun w => !decide (w.port = p) := by rw [← hu]; rfl
    have queue' : u.owq.map (·.port) =
        (passed.filter fun q => !decide (q = p)) ++ rest.filter fun q => !decide (q = p) := by
      rw [left, owq_filter, queue, List.filter_append, List.filter_cons_of_neg (by simp)]
    have passes' : ∀ q ∈ passed.filter fun q => !decide (q = p), PassedOver u q := fun q hm => by
      obtain ⟨old, apart⟩ := List.mem_filter.mp hm
      rw [← hu]
      exact passedOver_quarantining (by simpa using apart) (passes q old)
    have shorter : u.owq.length ≤ s.owq.length := by rw [left]; exact List.length_filter_le _ _
    have gone : u.waiting p = false := by simp [State.waiting, left]
    rw [service_from queue' passes'
      (Nat.lt_succ_of_le (scanCost_le (ps := p :: rest) shorter (Nat.le_trans (List.length_filter_le _ _) (Nat.le_succ _))))]
    have cost : scanCost u rest < scanCost s (p :: rest) :=
      Nat.lt_of_le_of_lt (scanCost_le (s := s) shorter (Nat.le_refl _)) (by simp [scanCost])
    rw [serviceScan_filter gone cost]
    exact serviceScan_fuel u
      (Nat.lt_of_le_of_lt (scanCost_le (Nat.le_refl _) (List.length_filter_le _ _)) cost)
      (Nat.lt_of_le_of_lt (scanCost_le (Nat.le_refl _) (List.length_filter_le _ _)) (Nat.lt_succ_of_lt cost))
  · have lost := suspectAtUse_voice false [] [] s n 0
    rw [voice_begin hq] at lost
    have said : voice false (slotLost s n) [] [.integrity .slot (n.val + 1) 0] =
        slotLost (telling s [.integrity .slot (n.val + 1) 0]) n :=
      congrArg (slotLost · n) (voice_telling (s := s) [] _ hq)
    rw [serviceScan_reads waits hl hc hr, admitSlot_damaged hk hp hd, lost, List.nil_append, ← said]
    have began := service_from (s := voice false (slotLost s n) [] [.integrity .slot (n.val + 1) 0]) (ps := p :: rest)
      queue (fun q hm => passedOver_slotLost (passes q hm)) (Nat.lt_succ_self _)
    rw [began]
    exact (serviceScan_reads (s := voice false (slotLost s n) [] _) waits hl hc hr _ _).symm

end Sys2Proof.Machine
end

section
/-!
PROOFS. OffHooks.lean: what an off-hook makes of an idle port, of a ringing one and of one that no call answers (O45).
-/
namespace Sys2Proof.Machine

open Sys2Proof.Safety

variable {s : State} {p : PortNo} {n : SlotNo} {e : EntryNo} {b : Binding} {q : Port}

/-- The state in which an off-hook is handled: the hook is OFF, and nothing is counted. -/
abbrev offHooked (s : State) (p : PortNo) : State := porting s p (declared (s.port p) .off .make)

theorem exec_offHookDeclared {k : Nat} (h : (s.port p).classifier = .closure k) :
    exec (.offHookDeclared p) s = .next (s.offHook p) := by
  show execOffHookDeclared p s = _
  rw [execOffHookDeclared, h]

theorem offHook_idle (h : (s.port p).sup = .idle) : s.offHook p = (offHooked s p).countAttempt.originate p := by
  rw [State.offHook, h]
  rfl

theorem offHook_bound (h : (s.port p).sup = .bound) : s.offHook p = (offHooked s p).offHookBound p := by
  rw [State.offHook, h]
  rfl

theorem offHook_silent (h : (s.port p).sup = .test ∨ (s.port p).sup = .quarantine) : s.offHook p = offHooked s p := by
  rcases h with h | h <;> rw [State.offHook, h] <;> rfl

/-- A fed port that stays fed changes its supervision state alone (R31). -/
theorem offHooked_place (h : (s.port p).sup = .idle) {st : SupState} (hs : st.fed = true) :
    (offHooked s p).place p st = porting s p { declared (s.port p) .off .make with sup := st } := by
  have fed : (declared (s.port p) .off .make).sup.fed = true := by
    show (s.port p).sup.fed = true
    rw [h]
    rfl
  unfold State.place
  rw [show (offHooked s p).port p = _ from port_porting s p _, place_fed fed hs]
  exact porting_porting s p _ _

/-! ## The checks of an origination attempt (R38) -/

theorem originate_damaged (used : (s.line p).withdrawn = false) (hd : (s.line p).damaged = true) :
    s.originate p = s.lineActions p := by
  simp [State.originate, used, hd]

theorem originate_barred (hr : InUse s p) (h : (s.line p).status ≠ .active ∨ s.link ≠ .up) :
    s.originate p = s.place p .lockout := by
  obtain ⟨used, good⟩ := hr
  rcases h with h | h <;> simp [State.originate, used, good, h]

/-- An attempt that has passed every check but that of a slot (R38). -/
def sought (s : State) (p : PortNo) : State :=
  match s.admitSlot (s.line p).cls with
  | (t, none) => t.joinQueue p
  | (t, some n) => t.seize p n

theorem sought_none (h : ¬ Admits s (s.line p).cls) : sought s p = s.joinQueue p := by
  rw [sought, admitSlot_none h]

theorem sought_good (h : Admits s (s.line p).cls) (hp : s.pool.head? = some n) (hd : (s.slot n).damaged = false) :
    sought s p = s.seize p n := by
  rw [sought, admitSlot_good h hp hd]

theorem suspectAtUse_line (s : State) (n : SlotNo) (k : Nat) (p : PortNo) : (s.suspectAtUse n k).line p = s.line p :=
  State.line_congr (congrArg Tables.lines (suspectAtUse_tables s n k)) p

theorem sought_damaged (h : Admits s (s.line p).cls) (hp : s.pool.head? = some n) (hd : (s.slot n).damaged = true) :
    sought s p = sought (s.suspectAtUse n 0) p := by
  rw [sought, sought, admitSlot_damaged h hp hd, suspectAtUse_line]

theorem originate_asks (hr : InUse s p) (hs : (s.line p).status = .active) (hl : s.link = .up) :
    s.originate p = if s.hasClearing p then s.joinQueue p else sought s p := by
  obtain ⟨used, good⟩ := hr
  unfold State.originate sought
  simp only [used, good, hs, hl] <;> rfl

theorem originate_queues (hr : InUse s p) (hs : (s.line p).status = .active) (hl : s.link = .up)
    (h : s.hasClearing p = true ∨ ¬ Admits s (s.line p).cls) : s.originate p = s.joinQueue p := by
  rw [originate_asks hr hs hl]
  split
  · rfl
  · next hc => exact sought_none (h.resolve_left hc)

theorem offHook_seeks (idle : (s.port p).sup = .idle) (hr : InUse s p) (hs : (s.line p).status = .active)
    (hl : s.link = .up) (hc : s.hasClearing p = false) : s.offHook p = sought (offHooked s p).countAttempt p := by
  rw [offHook_idle idle, originate_asks (s := (offHooked s p).countAttempt) hr hs hl]
  exact if_neg (by rw [show (offHooked s p).countAttempt.hasClearing p = false from hc]; decide)

/-! ## The answer of a ringing line (R80) -/

theorem offHookBound_rings (hc : s.call p = some (e, b)) (hp : b.phase = .ringWait ∨ b.phase = .ringing) :
    s.offHookBound p = if (s.entry e).damaged then s.bindingFailure e else s.answerRing e b := by
  unfold State.offHookBound
  rw [hc]
  rcases hp with hp | hp <;> simp only [hp]

/-- A damaged entry of a call behind which no port waits: no service follows (R89, step 8). -/
theorem bindingFailure_alone (he : (s.entry e).binding = some b) (hw : s.waiting b.port = false) :
    s.bindingFailure e = s.bindingActions (fun _ => []) e := by
  unfold State.bindingFailure
  dsimp only
  rw [he]
  dsimp only
  rw [hw]
  rfl

/-- Settles O45: the attempt is made from the counted state, and the answer from the uncounted one. -/
theorem offHookIsHandled : Obligations.OffHookIsHandled := by
  intro s p k hq hk q hqd tried htr
  subst hqd htr
  rw [exec_offHookDeclared hk]
  have still : Quiet (offHooked s p) := hq
  have counted : Quiet (offHooked s p).countAttempt := hq
  refine ⟨fun hs => congrArg _ (offHook_silent hs), fun idle hd used hc => ?_, fun idle hr => ⟨fun hs => ?_,
    fun hs hl => ⟨fun full => ?_, fun n hc hp hk' => ⟨fun hd => ?_, fun e hd he least => ?_⟩⟩⟩,
    fun e b bound call hp hn t ht => ?_, fun e b bound call hd hp last good hn hw => ?_⟩
  · rw [offHook_idle idle, originate_damaged (s := (offHooked s p).countAttempt) used hd]
    have lost := lineActions_idle (s := (offHooked s p).countAttempt) false [] [] hc
    rw [voice_begin counted] at lost
    exact congrArg _ (lost.trans (congrArg (quarantining · p) (voice_telling _ _ counted)))
  · rw [offHook_idle idle, originate_barred (s := (offHooked s p).countAttempt) hr hs]
    exact congrArg (fun t => Host.Outcome.next (t.countAttempt)) (offHooked_place idle (st := .lockout) rfl)
  · rw [offHook_idle idle, originate_queues (s := (offHooked s p).countAttempt) hr hs hl full]
    exact congrArg (fun t : State => Host.Outcome.next
      ({ t with
        counters := { s.countAttempt.counters with queued := bump s.counters.queued }
        owq := s.owq ++ [{ port := p, left := s.params.tWait * secondMs }] } : State))
      (offHooked_place idle (st := .waitSlot) rfl)
  · have lost := suspectAtUse_voice (s := (offHooked s p).countAttempt) false [] [] n 0
    rw [voice_begin counted] at lost
    have told := voice_telling (s := s) [] [.integrity .slot (n.val + 1) 0] hq
    have here := (offHook_seeks idle hr hs hl hc).trans (sought_damaged (s := (offHooked s p).countAttempt) hk' hp hd)
    have there := offHook_seeks (s := slotLost (voice false s [] [.integrity .slot (n.val + 1) 0]) n) idle hr hs hl hc
    have same : s.offHook p = (slotLost (voice false s [] [.integrity .slot (n.val + 1) 0]) n).offHook p :=
      (here.trans (congrArg (sought · p) lost)).trans there.symm
    rw [same, ← exec_offHookDeclared (s := slotLost (voice false s [] _) n) hk]
    exact congrArg (fun t => exec (.offHookDeclared p) (slotLost t n)) told
  · have fed : ((offHooked s p).countAttempt.port p).sup.fed = true := by
      rw [show (offHooked s p).countAttempt.port p = _ from port_porting s p _]
      show (s.port p).sup.fed = true
      rw [idle]
      rfl
    rw [offHook_seeks idle hr hs hl hc, sought_good (s := (offHooked s p).countAttempt) hk' hp hd]
    have seized := seize_voice (s := (offHooked s p).countAttempt) (n := n) false [] [] he least fed
    rw [voice_begin counted, voice_telling _ _ (by exact hq)] at seized
    have ports : (boundTo (offHooked s p).countAttempt p n e ((offHooked s p).countAttempt.originating p n s.chooseHandle)).ports =
        s.ports.set p { declared (s.port p) .off .make with sup := .bound } :=
      (congrArg (fun r : Port => (offHooked s p).ports.set p { r with sup := .bound }) (port_porting s p _)).trans
        (Vector.set_set _ _)
    exact congrArg _ (seized.trans (congrArg (fun ps => telling
      { boundTo (offHooked s p).countAttempt p n e ((offHooked s p).countAttempt.originating p n s.chooseHandle) with
        ports := ps } [.seize s.chooseHandle (slotNumber n) p (s.line p).key]) ports))
  · rw [offHook_bound bound, offHookBound_rings (s := offHooked s p) call.1 hp,
      if_neg (by rw [show ((offHooked s p).entry e).damaged = false from call.2]; decide)]
    have answered := voice_send (s := offHooked s p) false [] [] (.answered b.handle)
    rw [voice_begin still] at answered
    have passed : (offHooked s p).answerRing e b = t.budgetPass := by
      unfold State.answerRing
      dsimp only
      rw [answered, leaveRinging_some _ (by exact hn), ht]
      exact congrArg State.budgetPass
        (voice_telling (s := holding (unringing (offHooked s p) b.handle) e _) [] [.answered b.handle] hq)
    rw [passed]
    refine ⟨rfl, fun last => ?_⟩
    rw [ht]
    exact congrArg _ (budgetPass_settled (t := holding (unringing (offHooked s p) b.handle) e _) last.1
      (lastToRing_empty last) _)
  · obtain rfl := call_port call
    rw [offHook_bound bound, offHookBound_rings (s := offHooked s b.port) call hp, if_pos (by exact hd)]
    have lost := bindingActions_clears (s := offHooked s b.port) false [] (fun _ => []) (findBinding_found call).1 good
      (leaves_last (s := faulted (offHooked s b.port) 1) last)
      (completes_none (s := bindingLost (unringing (faulted (offHooked s b.port) 1) b.handle) e b) hn)
    rw [voice_begin still] at lost
    rw [bindingFailure_alone (s := offHooked s b.port) (findBinding_found call).1 hw, lost]
    exact congrArg _ (voice_telling _ _ hq)

end Sys2Proof.Machine
end

section
/-!
PROOFS. Slots.lean: BLOCK_SLOT and UNBLOCK_SLOT (O29).
-/
namespace Sys2Proof.Machine

open Sys2Proof.Safety

variable {s : State} {n : SlotNo} {e : EntryNo} {b : Binding} {tag : Nat}

theorem slotOfNumber_succ (n : SlotNo) : slotOfNumber (n.val + 1) = some n := by
  simp [slotOfNumber, Nat.succ_le_of_lt n.isLt]

theorem slotOfNumber_none {v : Nat} (h : v < 1 ∨ 15 < v) : slotOfNumber v = none := by
  rw [slotOfNumber, dif_neg (by omega)]

/-- A slot record found damaged outside a call, or under one behind which no port waits: no service follows (R89, step
8). -/
theorem slotFailure_alone
    (h : (s.slot n).state = .bound → ∀ e b, s.byHandle (s.slot n).handle = some (e, b) → s.waiting b.port = false) :
    s.slotFailure n = s.slotActions n := by
  unfold State.slotFailure
  dsimp only
  split
  · next e b found =>
    by_cases hs : (s.slot n).state = .bound
    · rw [h hs e b found, Bool.and_false]
      rfl
    · rw [decide_eq_false hs]
      rfl
  · rfl

theorem slotFailure_idle (held : Bool) (x y : List Message) (h : (s.slot n).state ≠ .bound) :
    (voice held s x y).slotFailure n = voice held (slotLost s n) x (y ++ [.integrity .slot (slotNumber n) 0]) := by
  rw [slotFailure_alone (s := voice held s x y) fun hs => absurd hs h, slotActions_idle held x y h]

/-! ## The two requests -/

theorem exec_blockSlot (tag v : Nat) (s : State) : exec (.blockSlot tag v) s = execBlockSlot tag v s := rfl

theorem exec_unblockSlot (tag v : Nat) (s : State) : exec (.unblockSlot tag v) s = execUnblockSlot tag v s := rfl

theorem blockSlot_suspect (hl : Listening s) (h : (s.slot n).state = .suspect) :
    exec (.blockSlot tag (n.val + 1)) s = .next ((s.taken.blockSlot n).ack tag .ok).release := by
  rw [exec_blockSlot, execBlockSlot, takeMessage_listening hl]
  dsimp only
  rw [slotOfNumber_succ]
  simp only [taken_slot, h]

theorem blockSlot_damaged (hl : Listening s) (h : (s.slot n).state ≠ .suspect) (hd : (s.slot n).damaged = true) :
    exec (.blockSlot tag (n.val + 1)) s = .next ((s.taken.slotFailure n).ack tag .storeFault).release := by
  rw [exec_blockSlot, execBlockSlot, takeMessage_listening hl]
  dsimp only
  rw [slotOfNumber_succ]
  cases hs : (s.slot n).state with
  | suspect => exact absurd hs h
  | free => simp only [taken_slot, hs, hd, if_true]
  | bound => simp only [taken_slot, hs, hd, if_true]
  | blocked => simp only [taken_slot, hs, hd, if_true]

/-- A good record of a slot that is not SUSPECT is blocked by its state (R56). -/
theorem blockSlot_good (hl : Listening s) (hd : (s.slot n).damaged = false) {f : State → State} {c : Code}
    (h : (s.slot n).state = .free ∧ f s.taken = (s.taken.leavePool n).blockSlot n ∧ c = .ok ∨
      (s.slot n).state = .bound ∧ f s.taken = s.taken.setSlot n { s.slot n with blockPending := true } ∧
        c = .blockPending ∨
      (s.slot n).state = .blocked ∧ f s.taken = s.taken ∧ c = .ok) :
    exec (.blockSlot tag (n.val + 1)) s = .next ((f s.taken).ack tag c).release := by
  rw [exec_blockSlot, execBlockSlot, takeMessage_listening hl]
  dsimp only
  rw [slotOfNumber_succ]
  rcases h with ⟨hs, hf, rfl⟩ | ⟨hs, hf, rfl⟩ | ⟨hs, hf, rfl⟩ <;>
    simp only [taken_slot, hs, hd, hf, Bool.false_eq_true, if_false]

theorem unblockSlot_damaged (hl : Listening s) (h : (s.slot n).state = .free) (hd : (s.slot n).damaged = true) :
    exec (.unblockSlot tag (n.val + 1)) s = .next ((s.taken.slotFailure n).ack tag .storeFault).release := by
  rw [exec_unblockSlot, execUnblockSlot, takeMessage_listening hl]
  dsimp only
  rw [slotOfNumber_succ]
  simp only [taken_slot, h, hd, if_true]

theorem unblockSlot_good (hl : Listening s) (hd : (s.slot n).damaged = false) {f : State → State}
    (h : (s.slot n).state = .free ∧ f s.taken = s.taken ∨
      (s.slot n).state = .bound ∧ f s.taken = s.taken.setSlot n { s.slot n with blockPending := false }) :
    exec (.unblockSlot tag (n.val + 1)) s = .next ((f s.taken).ack tag .ok).release := by
  rw [exec_unblockSlot, execUnblockSlot, takeMessage_listening hl]
  dsimp only
  rw [slotOfNumber_succ]
  rcases h with ⟨hs, hf⟩ | ⟨hs, hf⟩ <;> simp only [taken_slot, hs, hd, hf, Bool.false_eq_true, if_false]

theorem unblockSlot_frees (hl : Listening s) (h : (s.slot n).state = .blocked ∨ (s.slot n).state = .suspect) :
    exec (.unblockSlot tag (n.val + 1)) s = .next ((s.taken.freeSlot n).ack tag .ok).service.release := by
  rw [exec_unblockSlot, execUnblockSlot, takeMessage_listening hl]
  dsimp only
  rw [slotOfNumber_succ]
  rcases h with h | h <;> simp only [taken_slot, h]

/-- The record of a BOUND slot whose marker is written. -/
theorem slot_marked (hs : (s.slot n).state = .bound) (hd : (s.slot n).damaged = false) (m : Bool) :
    ({ s.slot n with blockPending := m } : Slot) =
      { state := .bound, handle := (s.slot n).handle, blockPending := m, damaged := false } := by
  rw [← hs, ← hd]

/-- An update that is answered: nothing else follows the reply. -/
theorem ack_next (hl : Listening s) (hq : Quiet s) (f : State → State) (tag : Nat) (c : Code)
    (hf : ∀ held x y, f (voice held { s with assembly := [] } x y) = voice held (f { s with assembly := [] }) x y)
    (ho : (f (answering s [.ack tag c])).out = (answering s [.ack tag c]).out) :
    ((f s.taken).ack tag c).release = f (answering s [.ack tag c]) := by
  rw [ack_after hl hq f tag c hf, release_quiet (quiet_out ho hq)]

/-- A slot record found damaged outside a call by a request: STORE_FAULT leaves, and the report after it. -/
theorem slotFault_idle (hl : Listening s) (hq : Quiet s) (h : (s.slot n).state ≠ .bound) :
    ((s.taken.slotFailure n).ack tag .storeFault).release =
      slotLost (answering s [.ack tag .storeFault, .integrity .slot (n.val + 1) 0]) n := by
  rw [taken_voice hq, slotFailure_idle (s := { s with assembly := [] }) true _ _ h, ack_release]
  exact voice_answered hl hq (slotLost · n) rfl

/-- Settles O29: the reply of each state of the slot, and the failure of a record that is read. -/
theorem slotsAreBlocked : Obligations.SlotsAreBlocked := by
  refine ⟨fun s tag hl hq => ⟨fun v hv => ⟨?_, ?_⟩, fun n => ⟨fun hs hd => ⟨?_, ?_⟩, fun hs hd => ⟨?_, ?_⟩,
    fun hs hd => ?_, fun hs => ?_, fun hs => ?_⟩⟩, fun s tag n hl hq hd => ⟨fun hs => ?_, fun hs => ?_⟩⟩
  · rw [exec_blockSlot, execBlockSlot, takeMessage_listening hl]
    dsimp only
    rw [slotOfNumber_none hv]
    exact congrArg _ (ack_taken hl hq tag _)
  · rw [exec_unblockSlot, execUnblockSlot, takeMessage_listening hl]
    dsimp only
    rw [slotOfNumber_none hv]
    exact congrArg _ (ack_taken hl hq tag _)
  · rw [blockSlot_good hl hd (f := fun t => (t.leavePool n).blockSlot n) (.inl ⟨hs, rfl, rfl⟩),
      ack_next hl hq (fun t => (t.leavePool n).blockSlot n) tag .ok (fun _ _ _ => rfl) rfl]
    rfl
  · rw [unblockSlot_good hl hd (f := id) (.inl ⟨hs, rfl⟩)]
    exact congrArg _ (ack_taken hl hq tag _)
  · rw [blockSlot_good hl hd (f := fun t => t.setSlot n { s.slot n with blockPending := true })
        (.inr (.inl ⟨hs, rfl, rfl⟩)), slot_marked hs hd,
      ack_next hl hq (fun t => t.setSlot n _) tag .blockPending (fun _ _ _ => rfl) rfl]
    rfl
  · rw [unblockSlot_good hl hd (f := fun t => t.setSlot n { s.slot n with blockPending := false }) (.inr ⟨hs, rfl⟩),
      slot_marked hs hd, ack_next hl hq (fun t => t.setSlot n _) tag .ok (fun _ _ _ => rfl) rfl]
    rfl
  · rw [blockSlot_good hl hd (f := id) (.inr (.inr ⟨hs, rfl, rfl⟩))]
    exact congrArg _ (ack_taken hl hq tag _)
  · rw [blockSlot_suspect hl hs, ack_next hl hq (fun t => t.blockSlot n) tag .ok (fun _ _ _ => rfl) rfl]
    rfl
  · rw [unblockSlot_frees hl hs, ack_after hl hq (fun t => t.freeSlot n) tag .ok fun _ _ _ => rfl]
    exact congrArg _ (release_quiet (quiet_serviceScan _ _ (quiet_out rfl hq)))
  · rw [blockSlot_damaged hl (by rcases hs with hs | hs <;> simp [hs]) hd,
      slotFault_idle hl hq (by rcases hs with hs | hs <;> simp [hs])]
    rfl
  · rw [unblockSlot_damaged hl hs hd, slotFault_idle hl hq (by simp [hs])]
    rfl

end Sys2Proof.Machine
end

section
/-!
PROOFS. CallFailures.lean: a damaged record of a live call, found by a request (O50), and what the sweep finds (O49).
-/
namespace Sys2Proof.Machine

open Sys2Proof.Safety

variable {s t u : State} {n : SlotNo} {e : EntryNo} {b : Binding} {tag : Nat}

/-! ## The failures, for an event that holds its way out and for one that does not -/

section
variable (held : Bool)

/-- A damaged entry whose slot record gives the handle (R181). -/
theorem bindingFailure_clears (he : (s.entry e).binding = some b) (hw : s.waiting b.port = false)
    (hs : (s.slot b.slot).damaged = false) (left : Leaves (faulted s 1) b.handle u) (hn : ¬ Ceasing u b.port) :
    (voice held s [] []).bindingFailure e =
      voice held (bindingLost u e b) [.clear (s.slot b.slot).handle .storeFault b.meterCount]
        [.integrity .binding e.val (s.slot b.slot).handle] := by
  rw [bindingFailure_alone (s := voice held s [] []) he hw]
  exact bindingActions_clears held [] _ he hs left (completes_none (s := bindingLost u e b) hn)

/-- A damaged entry whose slot record is damaged too (R181). -/
theorem bindingFailure_both (he : (s.entry e).binding = some b) (hw : s.waiting b.port = false)
    (hs : (s.slot b.slot).damaged = true) (left : Leaves (faulted s 2) b.handle u) (hn : ¬ Ceasing u b.port) :
    (voice held s [] []).bindingFailure e =
      voice held (bindingLost u e b) []
        [.integrity .binding e.val 0, .integrity .slot (b.slot.val + 1) 0] := by
  rw [bindingFailure_alone (s := voice held s [] []) he hw]
  exact bindingActions_both held [] _ he hs left (completes_none (s := bindingLost u e b) hn)

/-- The slot of a lost binding is put out of use once, whoever finds it first. -/
theorem bindingLost_suspect (u : State) (e : EntryNo) (b : Binding) :
    bindingLost (u.suspect b.slot) e b = bindingLost u e b := by
  unfold bindingLost State.suspect State.leavePool State.setSlot
  dsimp only
  rw [Vector.set_set, List.filter_filter]
  simp only [Bool.and_self]
  rfl

/-- A damaged slot record of a call whose entry reads good (R183). -/
theorem slotFailure_clears (hs : (s.slot b.slot).state = .bound) (hh : (s.slot b.slot).handle = b.handle)
    (named : Named s b.handle e b) (hw : s.waiting b.port = false) (hr : Leavable s b.handle)
    (hn : ¬ Ceasing s b.port) :
    (voice held s [] []).slotFailure b.slot =
      voice held (bindingLost (leftRinging (faulted s 1) b.handle) e b) [.clear b.handle .storeFault b.meterCount]
        [.integrity .slot (b.slot.val + 1) b.handle] := by
  have frame : Framed (faulted s 1) (·.suspect b.slot) := ⟨⟨rfl, rfl, rfl⟩, fun _ => rfl⟩
  have leavable : Leavable (faulted s 1) b.handle := hr
  have left : Leaves ((faulted s 1).suspect b.slot) b.handle _ := leaves_leftRinging (frame.leavable leavable)
  rw [leftRinging_framed frame leavable] at left
  have ceasing : ¬ Ceasing (leftRinging (faulted s 1) b.handle) b.port := by
    rw [leftRinging_onto leavable]
    exact hn
  generalize leftRinging (faulted s 1) b.handle = u at left ceasing ⊢
  have alone : (voice held s [] []).slotFailure b.slot = (voice held s [] []).slotActions b.slot := by
    refine slotFailure_alone fun _ f c found => ?_
    have same : some (f, c) = some (e, b) := found.symm.trans ((congrArg s.byHandle hh).trans named.1)
    cases same
    exact hw
  rw [alone, slotActions_clears held [] hs (hh ▸ named) left (completes_none (s := bindingLost _ e b) ceasing),
    bindingLost_suspect]
  rfl

end

theorem leaves_none {k : Nat} (hn : NotRinging s k) : Leaves s k s := by
  have left := leaves_leftRinging (s := s) (k := k) (.inl hn)
  rwa [leftRinging_none hn] at left

/-! ## Found by a request -/

theorem Handled.damaged {i : Nat → Address → Instr} {take : Nat → EntryNo → Binding → State → State} (m : Handled i take)
    (hl : Listening s) (tag : Nat) {h : Nat} (hb : s.byHandle h = some (e, b)) (hd : (s.entry e).damaged = true) :
    exec (i tag (.handle h)) s = .next ((s.taken.bindingFailure e).ack tag .storeFault).release := by
  rw [m.exec_eq, takeHandle hl, withHandle_damaged (s := s.taken) hb hd]

/-- One of the six messages that name a handle. -/
theorem handled_damaged {i : Instr} {h : Nat} (hl : Listening s) (hb : s.byHandle h = some (e, b))
    (hd : (s.entry e).damaged = true)
    (hi : i ∈ [.grant tag (.handle h), .deny tag (.handle h), .answer tag (.handle h), .clear tag (.handle h) 0,
      .cleared tag (.handle h), .meter tag (.handle h) 1]) :
    exec i s = .next ((s.taken.bindingFailure e).ack tag .storeFault).release := by
  simp only [List.mem_cons, List.not_mem_nil, or_false] at hi
  rcases hi with rfl | rfl | rfl | rfl | rfl | rfl
  · exact Handled.grant.damaged hl tag hb hd
  · exact Handled.deny.damaged hl tag hb hd
  · exact Handled.answer.damaged hl tag hb hd
  · exact (Handled.clear 0).damaged hl tag hb hd
  · exact Handled.cleared.damaged hl tag hb hd
  · exact (Handled.meter 1).damaged hl tag hb hd

/-- Settles O50: the three failures of a call that rings in no list, each within a message. -/
theorem callRecordFailures : Obligations.CallRecordFailures := by
  intro s tag e b hl hq hn
  refine ⟨fun hb hd hc hw i hi => ?_, fun hs hd hh named hc hw => ?_, fun hd hw call hp => ?_⟩
  · have he := (findBinding_found hb).1
    rw [handled_damaged hl hb hd hi, taken_voice hq]
    refine ⟨fun hs => ?_, fun hs => ?_⟩
    · rw [bindingFailure_clears (s := { s with assembly := [] }) true he hw hs (leaves_none hn) hc, ack_release]
      exact congrArg _ (voice_answered hl hq (fun x => bindingLost (faulted x 1) e b) (y := []) rfl)
    · rw [bindingFailure_both (s := { s with assembly := [] }) true he hw hs (leaves_none hn) hc, ack_release]
      exact congrArg _ (voice_answered hl hq (fun x => bindingLost (faulted x 2) e b) (y := []) rfl)
  · rw [blockSlot_damaged hl (by simp [hs]) hd, taken_voice hq,
      slotFailure_clears (s := { s with assembly := [] }) true hs hh named hw (.inl hn) hc, ack_release,
      leftRinging_none (s := faulted { s with assembly := [] } 1) hn]
    exact congrArg _ (voice_answered hl hq (fun x => bindingLost (faulted x 1) e b) (y := []) rfl)
  · rw [readLine_damaged hl (a := .port b.port.val) (by rw [State.resolve, portOfNumber_lt b.port.isLt]; rfl) hd hw tag,
      lineFault_call hl hq call hp (.inl hn), leftRinging_none (s := answering s _) hn]
    rfl

end Sys2Proof.Machine
end

section
/-!
PROOFS. Sweep.lean: a storage upset, and what the sweep makes of the record at its position (O49).
-/
namespace Sys2Proof.Machine

open Sys2Proof.Safety

variable {s u : State} {p : PortNo} {n : SlotNo} {e : EntryNo} {b : Binding} {i : SweepPos} {k : Nat}

/-! ## The position -/

theorem sweepPos_succ (i : SweepPos) : i + 1 = if h : i.val < 77 then ⟨i.val + 1, by omega⟩ else 0 := by
  have := i.isLt
  apply Fin.ext
  split
  · next small => exact Fin.val_add_one_of_lt (n := 77) (Fin.lt_def.mpr small)
  · have last : i = Fin.last 77 := Fin.ext (by simp; omega)
    rw [last]
    rfl

theorem locationOf_line (h : i.val = p.val) : locationOf i = .line p := by
  have := p.isLt
  rw [locationOf, dif_pos (by omega)]
  exact congrArg Location.line (Fin.ext h)

theorem locationOf_slot (h : i.val = n.val + 48) : locationOf i = .slot n := by
  have := n.isLt
  rw [locationOf, dif_neg (by omega), dif_pos (by omega)]
  exact congrArg Location.slot (Fin.ext (by simp [h]))

theorem locationOf_binding (h : i.val = e.val + 63) : locationOf i = .binding e := by
  have := e.isLt
  rw [locationOf, dif_neg (by omega), dif_neg (by omega)]
  exact congrArg Location.binding (Fin.ext (by simp [h]))

/-- The state in which the sweep reads: the position has moved on, and the next step is 50 ms away. -/
def sweptOn (s : State) : State :=
  { s with
    sweepPos := if h : s.sweepPos.val < 77 then ⟨s.sweepPos.val + 1, by omega⟩ else 0
    sweepLeft := 50 }

theorem exec_sweepStep (hc : s.storeClearing = false) :
    exec .sweepStep s = .next ((sweptOn s).sweepRead (locationOf s.sweepPos)) := by
  show execSweepStep s = _
  unfold execSweepStep
  rw [hc, sweepPos_succ]
  rfl

/-! ## What the removal from the ringing lists keeps -/

theorem leftRinging_out (hr : Leavable s k) : (leftRinging s k).out = s.out := by rw [leftRinging_onto hr]; rfl

theorem leftRinging_ceasing (hr : Leavable s k) : Ceasing (leftRinging s k) p ↔ Ceasing s p := by
  rw [leftRinging_onto hr]
  rfl

theorem bindingFailure_empty (held : Bool) (x y : List Message) (he : (s.entry e).binding = none) :
    (voice held s x y).bindingFailure e =
      voice held (holding (faulted s 1) e none) x (y ++ [.integrity .binding e.val 0]) := by
  unfold State.bindingFailure
  dsimp only
  rw [show ((voice held s x y).entry e).binding = none from he]
  exact bindingActions_empty held x (fun _ => []) he y

/-! ## The record that is read -/

theorem sweepRead_line_reads (hr : Reads s p) : s.sweepRead (.line p) = s := by
  unfold State.sweepRead
  exact if_neg (by rw [not_placementFault hr]; decide)

theorem sweepRead_line_fault (hd : (s.line p).damaged = true) (hw : (s.line p).withdrawn = false) :
    s.sweepRead (.line p) = s.lineActions p := by
  simp [State.sweepRead, hd, hw]

theorem sweepRead_line_idle (hq : Quiet s) (hd : (s.line p).damaged = true) (hw : (s.line p).withdrawn = false)
    (idle : ∀ e b, s.call p = some (e, b) → b.phase = .clearing) :
    s.sweepRead (.line p) = telling (quarantining s p) [.integrity .line p.val 0] := by
  have lost := lineActions_idle (s := s) false [] [] idle
  rw [voice_begin hq] at lost
  rw [sweepRead_line_fault hd hw, lost]
  exact voice_telling (s := quarantining s p) _ _ hq

theorem sweepRead_line_call (hq : Quiet s) (hd : (s.line p).damaged = true) (hw : (s.line p).withdrawn = false)
    (call : Holds s p e b) (hp : b.phase ≠ .clearing) (hr : Leavable s b.handle) :
    s.sweepRead (.line p) =
      telling (callLineLost (leftRinging s b.handle) e b)
        [.clear b.handle .storeFault b.meterCount, .integrity .line p.val b.handle] := by
  have lost := lineActions_clears (s := s) false [] call hp hr
  rw [voice_begin hq] at lost
  rw [sweepRead_line_fault hd hw, lost]
  exact voice_telling _ _ (quiet_out (leftRinging_out hr) hq)

theorem sweepRead_slot_good (hd : (s.slot n).damaged = false) : s.sweepRead (.slot n) = s := by
  simp [State.sweepRead, hd]

theorem sweepRead_slot_fault (hd : (s.slot n).damaged = true) : s.sweepRead (.slot n) = s.slotFailure n := by
  simp [State.sweepRead, hd]

theorem sweepRead_slot_idle (hq : Quiet s) (hd : (s.slot n).damaged = true) (hs : (s.slot n).state ≠ .bound) :
    s.sweepRead (.slot n) = telling (slotLost s n) [.integrity .slot (n.val + 1) 0] := by
  have lost := slotFailure_idle (s := s) false [] [] hs
  rw [voice_begin hq] at lost
  rw [sweepRead_slot_fault hd, lost]
  exact voice_telling (s := slotLost s n) _ _ hq

theorem sweepRead_slot_call (hq : Quiet s) (hd : (s.slot b.slot).damaged = true) (hs : (s.slot b.slot).state = .bound)
    (hh : (s.slot b.slot).handle = b.handle) (named : Named s b.handle e b) (hw : s.waiting b.port = false)
    (hr : Leavable s b.handle) (hn : ¬ Ceasing s b.port) :
    s.sweepRead (.slot b.slot) =
      telling (bindingLost (leftRinging (faulted s 1) b.handle) e b)
        [.clear b.handle .storeFault b.meterCount, .integrity .slot (b.slot.val + 1) b.handle] := by
  have lost := slotFailure_clears false hs hh named hw hr hn
  rw [voice_begin hq] at lost
  rw [sweepRead_slot_fault hd, lost]
  exact voice_telling _ _ (quiet_out (leftRinging_out (s := faulted s 1) hr) hq)

theorem sweepRead_entry_good (hd : (s.entry e).damaged = false) : s.sweepRead (.binding e) = s := by
  simp [State.sweepRead, hd]

theorem sweepRead_entry_fault (hd : (s.entry e).damaged = true) : s.sweepRead (.binding e) = s.bindingFailure e := by
  simp [State.sweepRead, hd]

theorem sweepRead_entry_empty (hq : Quiet s) (hd : (s.entry e).damaged = true) (he : (s.entry e).binding = none) :
    s.sweepRead (.binding e) = telling (holding (faulted s 1) e none) [.integrity .binding e.val 0] := by
  have lost := bindingFailure_empty false [] [] he
  rw [voice_begin hq] at lost
  rw [sweepRead_entry_fault hd, lost]
  exact voice_telling (s := holding (faulted s 1) e none) _ _ hq

section
variable (hq : Quiet s) (hd : (s.entry e).damaged = true) (he : (s.entry e).binding = some b)
  (hw : s.waiting b.port = false) (hr : Leavable s b.handle) (hn : ¬ Ceasing s b.port)
include hq hd he hw hr hn

theorem sweepRead_entry_clears (hs : (s.slot b.slot).damaged = false) :
    s.sweepRead (.binding e) =
      telling (bindingLost (leftRinging (faulted s 1) b.handle) e b)
        [.clear (s.slot b.slot).handle .storeFault b.meterCount,
         .integrity .binding e.val (s.slot b.slot).handle] := by
  have leavable : Leavable (faulted s 1) b.handle := hr
  have lost := bindingFailure_clears false he hw hs (leaves_leftRinging leavable)
    (mt (leftRinging_ceasing leavable).mp hn)
  rw [voice_begin hq] at lost
  rw [sweepRead_entry_fault hd, lost]
  exact voice_telling _ _ (quiet_out (leftRinging_out leavable) hq)

theorem sweepRead_entry_both (hs : (s.slot b.slot).damaged = true) :
    s.sweepRead (.binding e) =
      telling (bindingLost (leftRinging (faulted s 2) b.handle) e b)
        [.integrity .binding e.val 0, .integrity .slot (b.slot.val + 1) 0] := by
  have leavable : Leavable (faulted s 2) b.handle := hr
  have lost := bindingFailure_both false he hw hs (leaves_leftRinging leavable)
    (mt (leftRinging_ceasing leavable).mp hn)
  rw [voice_begin hq] at lost
  rw [sweepRead_entry_fault hd, lost]
  exact voice_telling _ _ (quiet_out (leftRinging_out leavable) hq)

end

/-- Settles O49: the sweep reads one record, and the failure of each kind is that of an event that holds nothing back. -/
theorem sweepAndUpsets : Obligations.SweepAndUpsets := by
  refine ⟨fun s => ⟨fun p => rfl, fun n => rfl, fun e => rfl⟩, fun s hq hc u hu => ?_⟩
  subst hu
  rw [exec_sweepStep hc]
  refine ⟨fun p hi => ⟨fun hr => ?_, fun hd hw => ⟨fun idle => ?_, fun e b call hp hr => ?_⟩⟩,
    fun n hi => ⟨fun hd => ?_, fun hd hs => ?_, fun e b hd hs hb hh named hr hn hw => ?_⟩,
    fun e hi => ⟨fun hd => ?_, fun hd he => ?_, fun b hd he hr hn hw => ⟨fun hs => ?_, fun hs => ?_⟩⟩⟩
  · rw [locationOf_line hi]
    exact congrArg _ (sweepRead_line_reads (s := sweptOn s) hr)
  · rw [locationOf_line hi]
    exact congrArg _ (sweepRead_line_idle (s := sweptOn s) hq hd hw idle)
  · rw [locationOf_line hi]
    exact congrArg _ (sweepRead_line_call (s := sweptOn s) hq hd hw call hp (leavable_of_read (s := sweptOn s) hr))
  · rw [locationOf_slot hi]
    exact congrArg _ (sweepRead_slot_good (s := sweptOn s) hd)
  · rw [locationOf_slot hi]
    exact congrArg _ (sweepRead_slot_idle (s := sweptOn s) hq hd hs)
  · subst hb
    rw [locationOf_slot hi]
    exact congrArg _
      (sweepRead_slot_call (s := sweptOn s) hq hd hs hh named hw (leavable_of_read (s := sweptOn s) hr) hn)
  · rw [locationOf_binding hi]
    exact congrArg _ (sweepRead_entry_good (s := sweptOn s) hd)
  · rw [locationOf_binding hi]
    exact congrArg _ (sweepRead_entry_empty (s := sweptOn s) hq hd he)
  all_goals
    rw [locationOf_binding hi]
    have leavable : Leavable (sweptOn s) b.handle := leavable_of_others (s := sweptOn s) he hr
  · exact congrArg _ (sweepRead_entry_clears (s := sweptOn s) hq hd he hw leavable hn hs)
  · exact congrArg _ (sweepRead_entry_both (s := sweptOn s) hq hd he hw leavable hn hs)

end Sys2Proof.Machine
end

section
/-!
PROOFS. SlotReads.lean: no event that handles a failure damages a slot record, and so QUERY_SLOTS, which reads the records
one after the other, comes to the damage it found at first (O30).
-/
namespace Sys2Proof.Machine

open Sys2Proof.Safety

variable {s t u : State} {n m : SlotNo} {tag : Nat}

/-! ## Slot records that read good stay so -/

/-- Every slot record that reads good in the first state reads good in the second. -/
def Mends (s t : State) : Prop := ∀ m, (s.slot m).damaged = false → (t.slot m).damaged = false

theorem Mends.of_slots (h : t.slots = s.slots) : Mends s t := fun m hm => by rwa [State.slot_congr h]

theorem Mends.refl (s : State) : Mends s s := fun _ h => h

theorem Mends.trans (h : Mends s t) (k : Mends t u) : Mends s u := fun m hm => k m (h m hm)

theorem mends_outward (h : Outward s t) : Mends s t := .of_slots (congrArg Tables.slots h.tables)

theorem mends_setSlot (s : State) (n : SlotNo) {r : Slot} (h : r.damaged = false) : Mends s (s.setSlot n r) := by
  intro m hm
  rw [State.slot_setSlot]
  split
  · exact h
  · exact hm

theorem mends_suspect (s : State) (n : SlotNo) : Mends s (s.suspect n) := mends_setSlot (s.leavePool n) n rfl

theorem mends_reporting {f : State → State} (own : List Message) (hf : ∀ u, Outward s u → Mends u (f u)) :
    Mends s (s.reporting own f) :=
  reporting_ends (P := Mends s) own (fun u hu => (mends_outward hu).trans (hf u hu))
    fun _ h => h.trans (.of_slots rfl)

theorem mends_setPort (s : State) (p : PortNo) (q : Port) : Mends s (s.setPort p q) := .of_slots rfl

theorem mends_settle (s : State) (p : PortNo) : Mends s (s.settle p) := by
  rw [State.settle_eq]
  exact mends_setPort s p _

theorem mends_quarantine (s : State) (p : PortNo) : Mends s (s.quarantine p) := by
  rw [State.quarantine_eq]
  exact mends_setPort s p _

theorem mends_lineActionsRetiring (s : State) (p : PortNo) (k : Nat) : Mends s (s.lineActionsRetiring p k) :=
  Mends.trans (.of_slots rfl) (mends_reporting (s := s.countFault.withdraw p) _ fun u _ => mends_quarantine u p)

theorem mends_completeCease (s : State) (p : PortNo) (k : Nat) : Mends s (s.completeCease p k) := by
  by_cases h : Ceasing s p
  · cases hd : (s.line p).damaged with
    | true => rw [completeCease_damaged h hd]; exact mends_lineActionsRetiring s p k
    | false =>
      rw [completeCease_good h hd]
      exact Mends.trans (t := ceased s p (s.line p).total) (.of_slots rfl) (mends_outward (outward_send _ _))
  · rw [completeCease_none h]
    exact .refl s

theorem mends_leaveRinging (s : State) (k : Nat) {after : State → State} (h : ∀ t, Mends t (after t)) :
    Mends s (s.leaveRinging after k) := by
  unfold State.leaveRinging
  split
  · exact Mends.trans (t := (s.dropQueued k).dropRinging k) (.of_slots rfl) (h _)
  · exact .refl s

theorem mends_retireFailed (s : State) (e : EntryNo) (b : Binding) (k : Nat) {after : State → State}
    (h : ∀ t, Mends t (after t)) : Mends s (s.retireFailed after e b k) := by
  have left := mends_leaveRinging s b.handle h
  unfold State.retireFailed
  dsimp only
  generalize s.leaveRinging after b.handle = t at left ⊢
  have lost : Mends t (((t.stopInjector b.port).suspect b.slot).writeEntry e none) :=
    Mends.trans (t := t.stopInjector b.port) (.of_slots rfl) (mends_suspect _ b.slot)
  exact left.trans (lost.trans ((mends_settle _ _).trans (mends_completeCease _ _ _)))

theorem mends_failEntry (s : State) (outer : Nat → List Message) (e : EntryNo) {after : State → State}
    (h : ∀ t, Mends t (after t)) : Mends s (s.failEntry after outer e) := by
  unfold State.failEntry
  dsimp only
  split
  · exact mends_reporting (s := s.countFault) _ fun u _ => .of_slots rfl
  · next b _ =>
    split
    · exact mends_reporting (s := s.countFault.countFault) _ fun u _ => mends_retireFailed u e b _ h
    · exact (mends_outward (outward_sendNow s.countFault _)).trans
        (mends_reporting _ fun u _ => mends_retireFailed u e b _ h)

theorem mends_shedStep (s : State) (fuel : Nat) : Mends s (s.shedStep fuel) := by
  induction fuel generalizing s with
  | zero => exact .refl s
  | succ fuel ih =>
    unfold State.shedStep
    split
    · split
      · next r _ =>
        refine Mends.trans ?_ (ih _)
        unfold State.shedTail
        split
        · exact .of_slots rfl
        · split
          · exact mends_failEntry s _ _ .refl
          · exact .of_slots rfl
      · exact .refl s
    · exact .refl s

theorem mends_admitStep (s : State) (fuel : Nat) : Mends s (s.admitStep fuel) := by
  induction fuel generalizing s with
  | zero => exact .refl s
  | succ fuel ih =>
    unfold State.admitStep
    split
    · split
      · refine Mends.trans ?_ (ih _)
        unfold State.startHead
        split
        · exact .of_slots rfl
        · split
          · exact mends_failEntry s _ _ .refl
          · exact .of_slots rfl
      · exact .refl s
    · exact .refl s

theorem mends_budgetPass (s : State) : Mends s s.budgetPass := (mends_shedStep s _).trans (mends_admitStep _ _)

theorem mends_clearingEffects (s : State) (e : EntryNo) (b : Binding) {move : State → State} (h : ∀ t, Mends t (move t)) :
    Mends s (s.clearingEffects e b move) :=
  Mends.trans (t := (s.writeEntry e (some (b.intoClearing (s.params.tRelease * secondMs)))).stopInjector b.port)
    (.of_slots rfl) ((h _).trans (mends_leaveRinging _ _ mends_budgetPass))

theorem mends_lineActions (s : State) (p : PortNo) : Mends s (s.lineActions p) := by
  have withdrawn : Mends s (s.countFault.withdraw p) := .of_slots rfl
  unfold State.lineActions
  dsimp only
  split
  · next e b _ =>
    split
    · exact withdrawn.trans (mends_reporting _ fun u _ => mends_quarantine u p)
    · split
      · exact withdrawn.trans ((mends_failEntry _ _ e mends_budgetPass).trans (mends_quarantine _ p))
      · exact withdrawn.trans ((mends_outward (outward_sendNow _ _)).trans
          (mends_reporting _ fun u _ => mends_clearingEffects u e b fun v => mends_quarantine v p))
  · exact withdrawn.trans (mends_reporting _ fun u _ => mends_quarantine u p)

theorem mends_slotActions (s : State) (n : SlotNo) : Mends s (s.slotActions n) := by
  have lost : Mends s (s.countFault.suspect n) := mends_suspect s.countFault n
  unfold State.slotActions
  dsimp only
  split
  · exact lost.trans (mends_reporting _ fun u _ => .refl u)
  · next e b _ =>
    split
    · exact lost.trans (mends_reporting (s := (s.countFault.suspect n).countFault) _
        fun u _ => mends_retireFailed u e b _ mends_budgetPass)
    · exact lost.trans ((mends_outward (outward_sendNow _ _)).trans
        (mends_reporting _ fun u _ => mends_retireFailed u e b _ mends_budgetPass))

theorem mends_allocate (s : State) (c : LineClass) (fuel : Nat) : Mends s (s.allocate c fuel).1 := by
  induction fuel generalizing s with
  | zero => exact .refl s
  | succ fuel ih =>
    unfold State.allocate
    split
    · split
      · next n _ _ =>
        split
        · exact Mends.trans (.trans (mends_suspect s.countFault n) (mends_reporting _ fun u _ => .refl u)) (ih _)
        · exact .refl s
      · exact .refl s
    · exact .refl s

theorem mends_seize (s : State) (p : PortNo) (n : SlotNo) : Mends s (s.seize p n) := by
  unfold State.seize
  cases he : s.emptyEntry with
  | none =>
    rw [create_full _ _ _ _ _ he]
    exact .refl s
  | some e =>
    rw [create_eq _ _ _ _ _ he]
    exact Mends.trans (t := s.bindTo p n e _ _) (mends_setSlot s n rfl) (mends_outward (outward_send _ _))

theorem mends_serviceScan (s : State) (fuel : Nat) (ps : List PortNo) : Mends s (s.serviceScan fuel ps) := by
  induction fuel generalizing s ps with
  | zero => exact .refl s
  | succ fuel ih =>
    cases ps with
    | nil => exact .refl s
    | cons p rest =>
      unfold State.serviceScan
      split
      · exact .refl s
      iterate 4
        split
        · exact ih s rest
      split
      · exact (mends_lineActions s p).trans (ih _ rest)
      have found := mends_allocate s (s.line p).cls (s.pool.length + 1)
      split
      · next t h => 
        rw [State.admitSlot] at h
        rw [h] at found
        exact found.trans (ih t rest)
      · next t n h =>
        rw [State.admitSlot] at h
        rw [h] at found
        exact found.trans (Mends.trans (mends_seize (t.leaveQueue p) p n) (ih _ _))

theorem mends_serviceIf (s : State) (b : Bool) : Mends s (s.serviceIf b) := by
  cases b with
  | false => exact .refl s
  | true => exact mends_serviceScan s _ _

theorem mends_slotFailure (s : State) (n : SlotNo) : Mends s (s.slotFailure n) :=
  (mends_slotActions s n).trans (mends_serviceIf _ _)

/-! ## One record after the other -/

theorem readSlot_good (h : (s.slot n).damaged = false) : s.readSlot n = s := if_neg (by simp [h])

theorem readSlot_fault (h : (s.slot n).damaged = true) : s.readSlot n = s.slotFailure n := if_pos h

theorem readSlots_good {ns : List SlotNo} (h : ∀ n ∈ ns, (s.slot n).damaged = false) : ns.foldl State.readSlot s = s := by
  induction ns with
  | nil => rfl
  | cons n ns ih => rw [List.foldl_cons, readSlot_good (h n (by simp)), ih fun m hm => h m (by simp [hm])]

theorem slotLost_slot (s : State) (h : m ≠ n) : (slotLost s n).slot m = s.slot m := by
  show (s.setSlot n Slot.outOfService).slot m = s.slot m
  rw [State.slot_setSlot]
  exact if_neg (by simpa using h)

/-- Damaged records of slots that no call holds are put out of use in their order, each with its report (R61, R183). -/
theorem readSlots_voice {ns : List SlotNo} (once : ns.Nodup)
    (h : ∀ n ∈ ns, (s.slot n).damaged = true → (s.slot n).state ≠ .bound) (x y : List Message) :
    ns.foldl State.readSlot (voice true s x y) =
      voice true ((ns.filter fun n => (s.slot n).damaged).foldl slotLost s) x
        (y ++ (ns.filter fun n => (s.slot n).damaged).map fun n => .integrity .slot (n.val + 1) 0) := by
  induction ns generalizing s y with
  | nil => rw [List.filter_nil, List.map_nil, List.append_nil]; rfl
  | cons n ns ih =>
    obtain ⟨apart, once⟩ := List.nodup_cons.mp once
    rw [List.foldl_cons]
    cases hd : (s.slot n).damaged with
    | false =>
      rw [readSlot_good (s := voice true s x y) hd, ih once fun m hm => h m (by simp [hm]),
        List.filter_cons_of_neg (by simp [hd])]
    | true =>
      have same (m : SlotNo) (hm : m ∈ ns) : (slotLost s n).slot m = s.slot m :=
        slotLost_slot s fun x => apart (x ▸ hm)
      have found : (ns.filter fun m => ((slotLost s n).slot m).damaged) = ns.filter fun m => (s.slot m).damaged :=
        List.filter_congr fun m hm => by rw [same m hm]
      rw [readSlot_fault (s := voice true s x y) hd, slotFailure_idle true x y (h n (by simp) hd),
        ih once fun m hm => by rw [same m hm]; exact h m (by simp [hm]), found,
        List.filter_cons_of_pos (by simp [hd]), List.foldl_cons, List.map_cons, List.append_assoc]
      rfl

/-- Several slots put out of use, all at once. -/
theorem slotsLost_eq {ns : List SlotNo} (h : ns ≠ []) :
    ns.foldl slotLost s = { faulted s ns.length with
      slots := ns.foldl (fun v (n : SlotNo) => v.set n Slot.outOfService) s.slots
      pool := s.pool.filter fun m => !decide (m ∈ ns) } := by
  induction ns generalizing s with
  | nil => exact absurd rfl h
  | cons n ns ih =>
    cases ns with
    | nil =>
      simp only [List.mem_singleton]
      rfl
    | cons m ns =>
      have counted : faulted (slotLost s n) (m :: ns).length =
          { slotLost s n with counters := (faulted s (n :: m :: ns).length).counters } := by
        have sum := faulted_faulted s 1 (m :: ns).length
        rw [Nat.add_comm] at sum
        exact congrArg (fun t : State => { slotLost s n with counters := t.counters }) sum
      have pool : (slotLost s n).pool.filter (fun k => !decide (k ∈ m :: ns)) =
          s.pool.filter fun k => !decide (k ∈ n :: m :: ns) := by
        refine (List.filter_filter ..).trans (List.filter_congr fun k _ => ?_)
        simp only [List.mem_cons, Bool.decide_or, Bool.not_or]
        rw [Bool.and_comm]
      rw [List.foldl_cons, ih (by simp), counted, pool]
      rfl

theorem setSlots_get {ns : List SlotNo} (v : Vector Slot 15) (r : Slot) (m : SlotNo) :
    (ns.foldl (fun v (n : SlotNo) => v.set n r) v)[m] = if m ∈ ns then r else v[m] := by
  induction ns generalizing v with
  | nil => simp
  | cons n ns ih =>
    rw [List.foldl_cons, ih]
    by_cases hm : m ∈ ns
    · simp [hm]
    · rw [if_neg hm]
      simp only [List.mem_cons, hm, or_false, Fin.getElem_fin, Vector.getElem_set, Fin.ext_iff, eq_comm]

/-! ## QUERY_SLOTS -/

theorem exec_querySlots (tag : Nat) (s : State) : exec (.querySlots tag) s = execQuerySlots tag s := rfl

theorem querySlots_damaged (hl : Listening s) (h : ∃ n, (s.slot n).damaged = true) :
    exec (.querySlots tag) s = .next ((allSlots.foldl State.readSlot s.taken).ack tag .storeFault).release := by
  obtain ⟨n, hn⟩ := h
  rw [exec_querySlots, execQuerySlots, takeMessage_listening hl]
  have found : allSlots.any (fun n => (s.taken.slot n).damaged) = true :=
    List.any_eq_true.mpr ⟨n, List.mem_finRange n, hn⟩
  rw [if_pos found]

theorem querySlots_good (hl : Listening s) (h : ∀ n, (s.slot n).damaged = false) :
    exec (.querySlots tag) s =
      .next ((s.taken.reply (s.slotListFirst tag)).send (s.slotListSecond tag)).release := by
  rw [exec_querySlots, execQuerySlots, takeMessage_listening hl]
  rw [if_neg (by simp [h])]
  rfl

/-- The one damaged record alone is handled (R61). -/
theorem readSlots_alone (h : ∀ m, (s.slot m).damaged = true ↔ m = n) :
    allSlots.foldl State.readSlot s = s.slotFailure n := by
  have good (m : SlotNo) (hm : m ≠ n) : (s.slot m).damaged = false := by
    rw [← Bool.not_eq_true, h]
    exact hm
  obtain ⟨before, after, all⟩ := List.append_of_mem (List.mem_finRange n)
  have once : (before ++ n :: after).Nodup := all ▸ List.nodup_finRange 15
  have apart := List.perm_middle.nodup_iff.mp once
  have outside (m : SlotNo) (hm : m ∈ before ++ after) : m ≠ n := fun x => (List.nodup_cons.mp apart).1 (x ▸ hm)
  have first : before.foldl State.readSlot s = s := readSlots_good fun m hm => good m (outside m (by simp [hm]))
  rw [allSlots, all, List.foldl_append, first, List.foldl_cons, readSlot_fault ((h n).mpr rfl)]
  exact readSlots_good fun m hm => mends_slotFailure s n m (good m (outside m (by simp [hm])))

/-- Settles O30: the records are read in one pass, and the pass comes to what it found at first. -/
theorem querySlotsReplies : Obligations.QuerySlotsReplies := by
  refine ⟨fun s n e b hb => ?_, fun s n hs => if_neg hs, fun s tag hl hq some unbound found hfound => ?_,
    fun s tag n hl hq alone hs => ?_, fun s tag hl hq good => ?_⟩
  · unfold State.connected
    rw [hb]
    by_cases hs : (s.slot n).state = .bound <;> simp [hs]
  · have member (m : SlotNo) : m ∈ found ↔ (s.slot m).damaged = true := by
      rw [hfound, List.mem_filter]
      simp
    have nonempty : found ≠ [] := by
      obtain ⟨n, hn⟩ := some
      exact List.ne_nil_of_mem ((member n).mpr hn)
    have slots : found.foldl (fun v (n : SlotNo) => v.set n Slot.outOfService) s.slots =
        s.slots.map fun r =>
          if r.damaged = true then { state := .suspect, handle := 0, blockPending := false, damaged := false } else r := by
      refine Vector.ext fun i hi => ?_
      have here := setSlots_get (ns := found) s.slots Slot.outOfService ⟨i, hi⟩
      rw [Vector.getElem_map]
      simp only [member] at here
      exact here
    have pool : (s.pool.filter fun m => !decide (m ∈ found)) = s.pool.filter fun n => !(s.slot n).damaged :=
      List.filter_congr fun m _ => by simp [member]
    rw [querySlots_damaged hl some, taken_voice hq,
      show allSlots.foldl State.readSlot (voice true { s with assembly := [] } [] []) = _ from
        readSlots_voice (s := { s with assembly := [] }) (List.nodup_finRange 15) (fun n _ => unbound n) [] [],
      ack_release, show ((List.finRange 15).filter fun n => (State.slot { s with assembly := [] } n).damaged) = found from
        hfound.symm, slotsLost_eq nonempty]
    have told := voice_answered hl hq (fun x => { faulted x found.length with
      slots := found.foldl (fun v (n : SlotNo) => v.set n Slot.outOfService) s.slots
      pool := s.pool.filter fun m => !decide (m ∈ found) })
      (x := .ack tag .storeFault :: found.map fun n => .integrity .slot (n.val + 1) 0) (y := []) rfl
    rw [List.append_nil] at told
    refine congrArg Host.Outcome.next (told.trans ?_)
    rw [slots, pool]
  · rw [querySlots_damaged hl ⟨n, (alone n).mpr rfl⟩, readSlots_alone (s := s.taken) alone,
      blockSlot_damaged hl (by simp [hs]) ((alone n).mpr rfl)]
  · have first : allSlots.take 7 = [0, 1, 2, 3, 4, 5, 6] := by decide
    have second : allSlots.drop 7 = [7, 8, 9, 10, 11, 12, 13, 14] := by decide
    rw [querySlots_good hl good, taken_voice hq, voice_reply, voice_send, voice_release]
    unfold State.slotListFirst State.slotListSecond
    rw [first, second]
    exact congrArg _ (voice_answering _ _ hl.1 hq)

end Sys2Proof.Machine
end

section
/-!
PROOFS. StartUp.lean: the link and its holds, with the RESTART that leaves when it is UP (O51), and the store clear of a
power-on (O54).
-/
namespace Sys2Proof.Machine

open Sys2Proof.Safety

variable {s t : State} {p : PortNo} {n : SlotNo} {e : EntryNo}

/-! ## The link (R193) -/

theorem exec_framerLost (s : State) : exec .framerLost s = execFramerLost s := rfl

theorem exec_framerAligned (s : State) : exec .framerAligned s = execFramerAligned s := rfl

theorem exec_alignmentHoldExpiry {k : Nat} (hl : s.link = .aligning) (hk : s.alignHold = some k) :
    exec .alignmentHoldExpiry s = .next
      ({ s with link := .up, alignHold := none, assembly := [], pendingRestart := .none }.sendRestart
        s.restartDue.1 s.restartDue.2) := by
  show execAlignmentHoldExpiry s = _
  rw [execAlignmentHoldExpiry, hl, hk]

/-- From DOWN, a new indication ALIGNED looks at the alignment (R193). -/
theorem framerAligned_down (hf : s.framer = .lost) (hl : s.link = .down) :
    exec .framerAligned s = .next ({ s with framer := .aligned } : State).tryAlign := by
  rw [exec_framerAligned, execFramerAligned, if_neg (by simp [hf])]
  dsimp only
  split
  · next up => rw [hl] at up; cases up
  · next aligning => rw [hl] at aligning; cases aligning
  · rfl

theorem tryAlign_starts (hd : s.link = .down) (hf : s.framer = .aligned) (hr : s.resetLine = .released)
    (hc : s.storeClearing = false) : s.tryAlign = { s with link := .aligning, alignHold := some 500 } :=
  if_pos ⟨hd, hf, hr, hc⟩

theorem tryAlign_waits (h : s.framer ≠ .aligned ∨ s.resetLine ≠ .released ∨ s.storeClearing ≠ false) : s.tryAlign = s :=
  if_neg fun x => h.elim (· x.2.1) fun h => h.elim (· x.2.2.1) (· x.2.2.2)

/-- What follows the RESTART (R162, R197). -/
def restartReports (s : State) : List Message :=
  [s.powerReport] ++ (if s.sense.faultB = true then [.sense .battery .fault] else []) ++
    (if s.sense.faultT = true then [.sense .temperature .fault] else [])

theorem voice_sendIf (held : Bool) (s : State) (a b : List Message) (q : Bool) (m : Message) :
    (if q = true then (voice held s a b).send m else voice held s a b) =
      voice held s a (b ++ if q = true then [m] else []) := by
  cases q with
  | false => exact (congrArg (voice held s a) (List.append_nil b)).symm
  | true => exact voice_send held a b m

theorem sendRestart_voice (held : Bool) (s : State) (a b : List Message) (c : RestartCause) (n : Nat) :
    (voice held s a b).sendRestart c n = voice held s a (b ++ .restart c n :: restartReports s) := by
  have both : ((voice held s a b).send (.restart c n)).send s.powerReport =
      voice held s a (b ++ [.restart c n] ++ [s.powerReport]) := by rw [voice_send, voice_send]
  unfold State.sendRestart restartReports
  dsimp only
  rw [show (voice held s a b).powerReport = s.powerReport from rfl, both,
    show (voice held s a b).sense = s.sense from rfl, voice_sendIf, voice_sendIf]
  simp

theorem restartDue_message (s : State) :
    Message.restart s.restartDue.1 s.restartDue.2 =
      match s.pendingRestart with
      | .power n => .restart .power n
      | .reset => .restart .reset s.failedNow
      | .none => .restart .link s.failedNow := by
  unfold State.restartDue
  cases s.pendingRestart <;> rfl

/-- Settles O51: each indication is one write, and the RESTART is sent from a state that holds nothing back. -/
theorem linkFollowsTheFramer : Obligations.LinkFollowsTheFramer := by
  refine ⟨fun s => ⟨fun h => ?_, fun h => ?_, fun h => ⟨fun hl => ?_, fun hl => ?_, fun hl => ?_⟩,
    fun h => ⟨fun hl => ?_, fun hl hr hc => ?_, fun hl hx => ?_⟩⟩, fun s k hq hl hk => ?_⟩
  · rw [exec_framerLost, execFramerLost, if_pos h]
  · rw [exec_framerAligned, execFramerAligned, if_pos h]
  iterate 3
    rw [exec_framerLost, execFramerLost, if_neg (by simp [h])]
    simp only [hl] <;> rfl
  · rw [exec_framerAligned, execFramerAligned, if_neg (by simp [h])]
    simp only [hl]
  · rw [framerAligned_down h hl]
    exact congrArg _ (tryAlign_starts (s := { s with framer := .aligned }) hl rfl hr hc)
  · rw [framerAligned_down h hl]
    refine congrArg _ (tryAlign_waits (s := { s with framer := .aligned }) (.inr ?_))
    exact hx.imp (fun hr => by simp [hr]) fun (hc : State.storeClearing { s with framer := .aligned } = true) => by simp [hc]
  · let u : State := { s with link := .up, alignHold := none, assembly := [], pendingRestart := .none }
    have sent := (sendRestart_voice false u [] [] s.restartDue.1 s.restartDue.2).trans (voice_telling (s := u) _ _ hq)
    rw [voice_begin (s := u) hq, restartDue_message, telling, if_pos (by rfl)] at sent
    rw [exec_alignmentHoldExpiry hl hk]
    refine congrArg _ (sent.trans ?_)
    simp only [restartReports, List.append_assoc, List.cons_append, List.nil_append]
    rfl

/-! ## The store clear (R206, R207) -/

/-- In a run over distinct values, what one of them alone writes is written when it comes. -/
theorem foldl_at {α β γ : Type} {f : β → α → β} (look : β → γ) (a : α) {g : γ → γ}
    (hit : ∀ s, look (f s a) = g (look s)) (miss : ∀ s b, b ≠ a → look (f s b) = look s) {xs : List α} (once : xs.Nodup)
    [Decidable (a ∈ xs)] (s : β) : look (xs.foldl f s) = if a ∈ xs then g (look s) else look s := by
  have passed {xs : List α} (h : a ∉ xs) (s : β) : look (xs.foldl f s) = look s := by
    induction xs generalizing s with
    | nil => rfl
    | cons b xs ih =>
      rw [List.foldl_cons, ih fun x => h (by simp [x]), miss s b fun x => h (by simp [x])]
  split
  · next mem =>
    obtain ⟨before, after, rfl⟩ := List.append_of_mem mem
    have apart := (List.nodup_cons.mp (List.perm_middle.nodup_iff.mp once)).1
    rw [List.foldl_append, List.foldl_cons, passed fun x => apart (by simp [x]), hit,
      passed fun x => apart (by simp [x])]
  · next out => exact passed out s

/-- The place of a line, and of a slot, in the order of the sweep (R184). -/
def linePos (p : PortNo) : SweepPos := ⟨p.val, by omega⟩

def slotPos (n : SlotNo) : SweepPos := ⟨n.val + 48, by omega⟩

/-- Putting failed locations out of use writes records, ports and the pool alone. -/
theorem failLocations_frame (L : List SweepPos) (s : State) :
    ∃ ls ps ss k, L.foldl State.failLocation s = { s with lines := ls, ports := ps, slots := ss, pool := k } := by
  induction L generalizing s with
  | nil => exact ⟨_, _, _, _, rfl⟩
  | cons i L ih =>
    obtain ⟨ls, ps, ss, k, h⟩ := ih (s.failLocation i)
    refine ⟨ls, ps, ss, k, ?_⟩
    rw [List.foldl_cons, h]
    unfold State.failLocation
    split <;> rfl

theorem failLocation_line (s : State) (p : PortNo) :
    s.failLocation (linePos p) = (s.setLine p { s.line p with withdrawn := true }).place p .quarantine := by
  rw [State.failLocation, locationOf_line (p := p) rfl]

theorem failLocation_slot (s : State) (n : SlotNo) : s.failLocation (slotPos n) = s.suspect n := by
  rw [State.failLocation, locationOf_slot (n := n) rfl]

/-- An entry stays in use (R92). -/
theorem failLocation_entry {i : SweepPos} (h : 63 ≤ i.val) (s : State) : s.failLocation i = s := by
  rw [State.failLocation, locationOf, dif_neg (by omega), dif_neg (by omega)]

theorem sweepPos_cases (i : SweepPos) : (∃ p, i = linePos p) ∨ (∃ n, i = slotPos n) ∨ 63 ≤ i.val := by
  by_cases h : i.val < 48
  · exact .inl ⟨⟨i.val, h⟩, rfl⟩
  · by_cases h2 : i.val < 63
    · exact .inr (.inl ⟨⟨i.val - 48, by omega⟩, Fin.ext (by simp [slotPos]; omega)⟩)
    · exact .inr (.inr (by omega))

/-- What one failed location does to another place. -/
theorem failLocation_elsewhere {i : SweepPos} (s : State) :
    (i ≠ linePos p → (s.failLocation i).line p = s.line p ∧ (s.failLocation i).port p = s.port p) ∧
    (i ≠ slotPos n → (s.failLocation i).slot n = s.slot n) := by
  rcases sweepPos_cases i with ⟨q, rfl⟩ | ⟨m, rfl⟩ | entry
  · rw [failLocation_line]
    refine ⟨fun h => ?_, fun _ => rfl⟩
    have apart : p ≠ q := fun x => h (by rw [x])
    exact ⟨(State.line_setLine s q p _).trans (if_neg apart), (State.port_setPort _ q p _).trans (if_neg apart)⟩
  · rw [failLocation_slot]
    refine ⟨fun _ => ⟨rfl, rfl⟩, fun h => ?_⟩
    exact (State.slot_setSlot (s.leavePool m) m n _).trans (if_neg fun x => h (by rw [x]))
  · rw [failLocation_entry entry]
    exact ⟨fun _ => ⟨rfl, rfl⟩, fun _ => rfl⟩

section
variable {L : List SweepPos} (once : L.Nodup) (s : State)
include once

theorem failLocations_line (p : PortNo) :
    (L.foldl State.failLocation s).line p =
      if linePos p ∈ L then { s.line p with withdrawn := true } else s.line p :=
  foldl_at (State.line · p) (linePos p) (g := fun r => { r with withdrawn := true })
    (fun s => by rw [failLocation_line]; exact (State.line_setLine s p p _).trans (if_pos rfl))
    (fun s _ h => ((failLocation_elsewhere (n := 0) s).1 h).1) once s

theorem failLocations_port (p : PortNo) :
    (L.foldl State.failLocation s).port p =
      if linePos p ∈ L then (s.port p).place .quarantine else s.port p :=
  foldl_at (State.port · p) (linePos p) (g := fun q => q.place .quarantine)
    (fun s => by rw [failLocation_line]; exact (State.port_setPort _ p p _).trans (if_pos rfl))
    (fun s _ h => ((failLocation_elsewhere (n := 0) s).1 h).2) once s

theorem failLocations_slot (n : SlotNo) :
    (L.foldl State.failLocation s).slot n = if slotPos n ∈ L then Slot.outOfService else s.slot n :=
  foldl_at (State.slot · n) (slotPos n) (g := fun _ => Slot.outOfService)
    (fun s => by rw [failLocation_slot]; exact (State.slot_setSlot (s.leavePool n) n n _).trans (if_pos rfl))
    (fun s _ h => (failLocation_elsewhere (p := 0) s).2 h) once s

end

theorem failLocations_pool (L : List SweepPos) (s : State) :
    (L.foldl State.failLocation s).pool = s.pool.filter fun n => !decide (slotPos n ∈ L) := by
  induction L generalizing s with
  | nil => exact (List.filter_eq_self.mpr fun n _ => by simp).symm
  | cons i L ih =>
    have first : (s.failLocation i).pool = s.pool.filter fun n => !decide (slotPos n = i) := by
      have others (h : ∀ n, slotPos n ≠ i) : s.pool = s.pool.filter fun n => !decide (slotPos n = i) :=
        (List.filter_eq_self.mpr fun n _ => by simp [h n]).symm
      rcases sweepPos_cases i with ⟨q, rfl⟩ | ⟨m, rfl⟩ | entry
      · rw [failLocation_line]
        refine others fun n h => ?_
        have := congrArg Fin.val h
        simp only [slotPos, linePos] at this
        omega
      · rw [failLocation_slot]
        refine List.filter_congr fun n _ => ?_
        simp only [slotPos, Nat.add_right_cancel_iff, Fin.ext_iff]
      · rw [failLocation_entry entry]
        refine others fun n h => ?_
        have := congrArg Fin.val h
        simp only [slotPos] at this
        omega
    rw [List.foldl_cons, ih, first, List.filter_filter]
    refine List.filter_congr fun n _ => ?_
    simp only [List.mem_cons, Bool.decide_or, Bool.not_or]
    rw [Bool.and_comm]

theorem mem_failedLocations {failed : List Nat} {i : SweepPos} : i ∈ failedLocations failed ↔ i.val ∈ failed := by
  simp [failedLocations]

theorem failedLocations_nodup (failed : List Nat) : (failedLocations failed).Nodup := (List.nodup_finRange 78).filter _

theorem failedLocations_length {failed : List Nat} (once : failed.Nodup) (range : ∀ l ∈ failed, l < 78) :
    (failedLocations failed).length = failed.length := by
  have same : ((failedLocations failed).map Fin.val).Perm failed := by
    refine (List.perm_ext_iff_of_nodup (nodup_map (fun _ _ => Fin.ext) (failedLocations_nodup failed)) once).mpr fun l => ?_
    rw [List.mem_map]
    constructor
    · rintro ⟨i, hi, rfl⟩
      exact mem_failedLocations.mp hi
    · exact fun h => ⟨⟨l, range l h⟩, mem_failedLocations.mpr h, rfl⟩
  rw [← same.length_eq, List.length_map]

/-- The state that the end of the store clear writes, before the failed locations are put out of use (R207). -/
def cleared (s : State) (count : Nat) : State :=
  { State.reset with
    pending := s.pending
    draws := s.draws
    ports := s.ports.map Port.cleared
    framer := s.framer
    resetLine := s.resetLine
    pendingRestart := .power count
    out := s.out }

theorem exec_storeClearEnd {k : Nat} (h : s.engine = .storeClear k) (failed : List Nat) :
    exec (.storeClearEnd failed) s = .next
      ((failedLocations failed).foldl State.failLocation (cleared s (failedLocations failed).length)).tryAlign := by
  show execStoreClearEnd failed s = _
  rw [execStoreClearEnd, if_pos (by simp [State.storeClearing, h])]
  rfl

theorem tryAlign_frame (s : State) : ∃ l h, s.tryAlign = { s with link := l, alignHold := h } := by
  unfold State.tryAlign
  split
  · exact ⟨_, _, rfl⟩
  · exact ⟨_, _, rfl⟩

/-- Settles O54: the failed locations are put out of use one by one, and each writes its own record alone. -/
theorem startsUp : Obligations.StartsUp := by
  refine ⟨fun s f r => ⟨_, rfl, rfl, rfl, rfl, rfl, rfl, rfl, rfl⟩, fun s failed k hk once range => ?_⟩
  have all := failedLocations_nodup failed
  generalize hu : (failedLocations failed).foldl State.failLocation (cleared s (failedLocations failed).length) = u
  have line (p : PortNo) := failLocations_line all (cleared s (failedLocations failed).length) p
  have port (p : PortNo) := failLocations_port all (cleared s (failedLocations failed).length) p
  have slot (n : SlotNo) := failLocations_slot all (cleared s (failedLocations failed).length) n
  have pool := failLocations_pool (failedLocations failed) (cleared s (failedLocations failed).length)
  simp only [hu, mem_failedLocations] at line port slot pool
  obtain ⟨ls, ps, ss, kept, rest⟩ := failLocations_frame (failedLocations failed) (cleared s (failedLocations failed).length)
  rw [hu, failedLocations_length once range] at rest
  obtain ⟨l, h, aligned⟩ := tryAlign_frame u
  have initial (p : PortNo) : (cleared s (failedLocations failed).length).line p = LineRecord.initial ∧
      (cleared s (failedLocations failed).length).port p = (s.port p).cleared := by
    simp [cleared, State.reset, State.line, State.port]
  have fresh (n : SlotNo) : (cleared s (failedLocations failed).length).slot n = Slot.initial := by
    simp [cleared, State.reset, State.slot]
  refine ⟨u.tryAlign, by rw [exec_storeClearEnd hk, hu], ?_⟩
  have looks (hf : s.framer = .aligned) (hr : s.resetLine = .released) :
      u.tryAlign = { u with link := .aligning, alignHold := some 500 } :=
    tryAlign_starts (by rw [rest]; rfl) (by rw [rest]; exact hf) (by rw [rest]; exact hr) (by rw [rest]; rfl)
  have waits (h : s.framer = .lost ∨ s.resetLine = .asserted) : u.tryAlign = u := by
    refine tryAlign_waits ?_
    rw [rest]
    exact h.elim (fun h => .inl (by simp [cleared, h])) fun h => .inr (.inl (by simp [cleared, h]))
  refine ⟨fun p => ⟨?_, ?_, ?_⟩, fun n => ?_, ?_, fun e => ?_, ?_⟩
  · rw [aligned]
    refine (line p).trans ?_
    rw [(initial p).1]
    split
    · next h => simp only [show p.val ∈ failed from h]; rfl
    · next h => simp only [show p.val ∉ failed from h]; rfl
  · rw [aligned, rest]
    exact Vector.getElem_replicate _
  · rw [aligned]
    refine (port p).trans ?_
    rw [(initial p).2]
    split
    · next h => exact (place_gain (st := .quarantine) rfl rfl).trans (if_pos (show p.val ∈ failed from h)).symm
    · next h => exact (if_neg (show p.val ∉ failed from h)).symm
  · rw [aligned]
    refine (slot n).trans ?_
    rw [fresh n]
    split
    · next h => rw [if_pos (show n.val + 48 ∈ failed from h)]; rfl
    · next h => rw [if_neg (show n.val + 48 ∉ failed from h)]; rfl
  · rw [aligned]
    exact pool
  · rw [aligned, rest]
    exact Vector.getElem_replicate _
  · refine ⟨?_, ?_, ?_, ?_, ?_, ?_, ?_, ?_, ?_, ?_, ?_, ?_, ?_, ?_, ?_, ?_, ?_, ?_, ?_, ?_, ?_, ?_, ?_, ?_,
      fun hf hr => by rw [looks hf hr]; exact ⟨rfl, rfl⟩, fun hx => by rw [waits hx, rest]; exact ⟨rfl, rfl⟩⟩
    all_goals rw [aligned, rest]; rfl

end Sys2Proof.Machine
end

section
/-!
PROOFS. Power.lean: the parameters that act at once (O38), and valid readings that cross no SURVIVAL (O41).
-/
namespace Sys2Proof.Machine

open Sys2Proof.Safety

variable {s t u : State} {q : Sense} {ms : List Message}

/-! ## Reports -/

/-- An event that holds nothing back reports a change of the power state or the band (R160). -/
theorem reportPower_telling (hq : Quiet t) (before : Sense) :
    t.reportPower before =
      telling t (if t.sense.power = before.power ∧ t.sense.band = before.band then [] else [t.powerReport]) := by
  unfold State.reportPower
  split
  · exact (voice_begin hq).symm.trans (voice_telling [] [] hq)
  · have sent := (voice_send (s := t) false [] [] t.powerReport).trans (voice_telling (s := t) _ _ hq)
    rwa [voice_begin hq] at sent

theorem telling_nil (hq : Quiet t) : telling t [] = t := ((voice_begin hq).symm.trans (voice_telling [] [] hq)).symm

/-! ## A computed anew (R122) -/

theorem quiet_recompute (hq : Quiet s) : Quiet s.recompute := quiet_budgetPass (s := { s with available := s.capacity }) hq

/-- A pass keeps the readings and the parameters, so the band is that of the state before it. -/
theorem pass_sense (s : State) : s.budgetPass.sense = s.sense := congrArg Still.sense (still_budgetPass s)

theorem pass_params (s : State) : s.budgetPass.params = s.params := congrArg Still.params (still_budgetPass s)

theorem bandNow_same (hp : t.params = s.params) (hs : t.sense = s.sense) : t.bandNow = s.bandNow := by
  unfold State.bandNow State.temperatureTaken
  rw [hp, hs]

theorem evalBand_pass (s : State) :
    s.budgetPass.evalBand = { s.budgetPass with sense := { s.sense with band := s.bandNow } } := by
  unfold State.evalBand
  rw [pass_sense, bandNow_same (pass_params s) (pass_sense s)]

/-- A change of the power state into or out of SURVIVAL has effects; another has none (R155 to R158). -/
theorem enterPower_plain {after : PowerState} (h : after = .survival ↔ s.sense.power = .survival) :
    s.enterPower after = { s with sense := { s.sense with power := after } } := by
  unfold State.enterPower
  dsimp only
  rw [if_neg (fun x => x.1 (h.mp x.2)), if_neg (fun x => x.2 (h.mpr x.1))]

/-! ## Every port, one after the other -/

theorem setPorts_list {f : State → PortNo → State} {g : PortNo → Port → Port} {ps : List PortNo}
    (h : ∀ v, ∀ p ∈ ps, f { s with ports := v } p = { s with ports := v.set p (g p v[p]) }) (once : ps.Nodup) :
    ps.foldl f s = { s with ports := Vector.ofFn fun p => if p ∈ ps then g p (s.port p) else s.port p } := by
  have run (qs : List PortNo) (hq : ∀ p ∈ qs, p ∈ ps) (v : Vector Port 48) :
      qs.foldl f { s with ports := v } =
        { s with ports := qs.foldl (fun (v : Vector Port 48) (p : PortNo) => v.set p (g p v[p])) v } := by
    induction qs generalizing v with
    | nil => rfl
    | cons p qs ih =>
      rw [List.foldl_cons, h v p (hq p (by simp)), ih fun p hp => hq p (by simp [hp])]
      rfl
  have each : ps.foldl (fun (v : Vector Port 48) (p : PortNo) => v.set p (g p v[p])) s.ports =
      Vector.ofFn fun p => if p ∈ ps then g p (s.port p) else s.port p := by
    refine Vector.ext fun i hi => ?_
    have here := foldl_at (f := fun (v : Vector Port 48) (p : PortNo) => v.set p (g p v[p]))
      (fun v => v[i]) (⟨i, hi⟩ : PortNo) (g := g ⟨i, hi⟩) (fun v => by simp)
      (fun v p hp => Vector.getElem_set_ne _ _ fun x => hp (Fin.ext x)) once s.ports
    rw [Vector.getElem_ofFn]
    exact here
  rw [← each]
  exact run ps (fun _ h => h) s.ports

/-- A pass over all ports that writes each by itself. -/
theorem setPorts_all {f : State → PortNo → State} {g : PortNo → Port → Port}
    (h : ∀ v p, f { s with ports := v } p = { s with ports := v.set p (g p v[p]) }) :
    allPorts.foldl f s = { s with ports := Vector.ofFn fun p => g p (s.port p) } := by
  refine (setPorts_list (fun v p _ => h v p) (List.nodup_finRange 48)).trans ?_
  congr
  funext p
  exact if_pos (List.mem_finRange p)

theorem unparkPort_eq (s : State) (p : PortNo) : s.unparkPort p = s.setPort p (unscanned (s.port p)) := by
  unfold State.unparkPort unscanned
  by_cases h : (s.port p).sup = .parked
  · have unfed : (s.port p).sup.fed = false := by rw [h]; rfl
    rw [if_pos h, if_pos h, State.mark, State.place, place_gain unfed rfl]
    exact (congrArg _ (congrArg (fun q : Port => { q with parkPending := false }) (port_porting s p _))).trans
      (porting_porting s p _ _)
  · rw [if_neg h, if_neg h]
    rfl

theorem unparkPorts_eq (s : State) :
    allPorts.foldl State.unparkPort s = { s with ports := Vector.ofFn fun p => unscanned (s.port p) } :=
  setPorts_all (g := fun _ => unscanned) fun _ p => unparkPort_eq _ p

/-- Leaving SURVIVAL unparks every port (R158). -/
theorem enterPower_leaves {after : PowerState} (hs : s.sense.power = .survival) (ha : after ≠ .survival) :
    s.enterPower after =
      { s with
        sense := { s.sense with power := after }
        ports := Vector.ofFn fun p => unscanned (s.port p) } := by
  unfold State.enterPower
  dsimp only
  rw [if_neg (fun x => ha x.2), if_pos ⟨hs, ha⟩]
  exact unparkPorts_eq _

/-! ## Parameters that act at once (R202) -/

theorem capacity_same (hp : t.params = s.params) (hb : t.sense.heldB = s.sense.heldB) (ht : t.sense.heldT = s.sense.heldT) :
    t.capacity = s.capacity := by
  unfold State.capacity State.batteryTaken State.bandNow State.temperatureTaken
  rw [hp, hb, ht]

section
variable {i : Fin 17} {value tag : Nat}

theorem paramEffects_pass (h : i.val ∈ [0, 1, 2]) (before : Params) :
    s.paramEffects paramTable[i].1 before = s.recompute := by
  obtain ⟨n, hn⟩ := i
  simp only [List.mem_cons, List.not_mem_nil, or_false] at h
  rcases h with rfl | rfl | rfl <;> rfl

/-- A channel whose enable flag has changed forgets its run and its fault (R152). -/
theorem channelChanged_temperature (before : Params) :
    s.channelChanged .temperature (before.temperature != s.params.temperature) =
      { s with sense :=
          if s.params.temperature = before.temperature then s.sense else { s.sense with runT := 0, faultT := false } } := by
  unfold State.channelChanged
  by_cases h : s.params.temperature = before.temperature
  · rw [if_pos h, if_neg (by simp [h])]
  · rw [if_neg h, if_pos (by simpa using fun x => h x.symm)]
    rfl

theorem channelChanged_battery (before : Params) :
    s.channelChanged .battery (before.battery != s.params.battery) =
      { s with sense :=
          if s.params.battery = before.battery then s.sense else { s.sense with runB := 0, faultB := false } } := by
  unfold State.channelChanged
  by_cases h : s.params.battery = before.battery
  · rw [if_pos h, if_neg (by simp [h])]
  · rw [if_neg h, if_pos (by simpa using fun x => h x.symm)]
    rfl

theorem paramEffects_band (h : i.val ∈ [5, 6, 16]) :
    (paramStored s tag i value).paramEffects paramTable[i].1 s.params =
      ({ paramStored s tag i value with sense :=
          if (stored s i value).temperature = s.params.temperature then s.sense
          else { s.sense with runT := 0, faultT := false } } : State).recompute.evalBand := by
  obtain ⟨n, hn⟩ := i
  simp only [List.mem_cons, List.not_mem_nil, or_false] at h
  rcases h with rfl | rfl | rfl
  · rw [if_pos (by rfl)]
    rfl
  · rw [if_pos (by rfl)]
    rfl
  · exact congrArg (fun t : State => t.recompute.evalBand)
      (channelChanged_temperature (s := paramStored s tag ⟨16, hn⟩ value) s.params)

theorem paramEffects_battery (h : i.val = 15)
    (hu : u = ({ paramStored s tag i value with sense :=
      if (stored s i value).battery = s.params.battery then s.sense
      else { s.sense with runB := 0, faultB := false } } : State).recompute) :
    (paramStored s tag i value).paramEffects paramTable[i].1 s.params =
      if s.params.battery && !(stored s i value).battery then u.enterPower .normal else u := by
  obtain ⟨n, hn⟩ := i
  obtain rfl : n = 15 := h
  have changed := channelChanged_battery (s := paramStored s tag ⟨15, hn⟩ value) s.params
  rw [hu]
  exact congrArg (fun t : State =>
    if s.params.battery && !(stored s ⟨15, hn⟩ value).battery then t.recompute.enterPower .normal else t.recompute) changed

theorem paramEffects_reserve (h : i.val = 7) :
    (paramStored s tag i value).paramEffects paramTable[i].1 s.params =
      if (stored s i value).reserve < s.params.reserve then (paramStored s tag i value).service
      else paramStored s tag i value := by
  obtain ⟨n, hn⟩ := i
  obtain rfl : n = 7 := h
  rfl

end

theorem reportPower_release (hq : Quiet t) (before : Sense) :
    (t.reportPower before).release =
      telling t (if t.sense.power = before.power ∧ t.sense.band = before.band then [] else [t.powerReport]) := by
  rw [release_quiet (quiet_reportPower before hq), reportPower_telling hq]

/-- Settles O38: each parameter's effects start from the state with the value stored, and the POWER report comes last. -/
theorem setParamActs : Obligations.SetParamActs := by
  intro s tag value i hl hq hi order r hr
  have acts := setParam_stored hl hq tag value hi i order
  obtain rfl : r = paramStored s tag i value := hr
  have quiet (q : Sense) : Quiet (State.recompute { paramStored s tag i value with sense := q }) :=
    quiet_recompute (s := { paramStored s tag i value with sense := q }) hq
  have sensed (q : Sense) : (State.recompute { paramStored s tag i value with sense := q }).sense = q := pass_sense _
  have measured (q : Sense) (hb : q.heldB = s.sense.heldB) (ht : q.heldT = s.sense.heldT) :
      State.recompute { paramStored s tag i value with sense := q } =
        ({ paramStored s tag i value with sense := q, available := (paramStored s tag i value).capacity } : State).budgetPass :=
    congrArg (fun a : Nat => ({ paramStored s tag i value with sense := q, available := a } : State).budgetPass)
      (capacity_same (s := paramStored s tag i value) (t := { paramStored s tag i value with sense := q }) rfl hb ht)
  refine ⟨fun h => ?_, fun h q hqs u hu => ?_, fun h => ?_, fun h q hqs => ?_⟩
  · rw [acts, paramEffects_pass h, show (paramStored s tag i value).recompute =
      State.recompute { paramStored s tag i value with sense := s.sense } from rfl, reportPower_release (quiet _),
      sensed, if_pos ⟨rfl, rfl⟩, telling_nil (quiet _)]
    rfl
  · have kept : q.power = s.sense.power ∧ q.band = s.sense.band ∧ q.heldB = s.sense.heldB ∧ q.heldT = s.sense.heldT := by
      rw [hqs]
      split <;> exact ⟨rfl, rfl, rfl, rfl⟩
    obtain ⟨power, band, heldB, heldT⟩ := kept
    have now : State.bandNow { paramStored s tag i value with sense := q, available := (paramStored s tag i value).capacity } =
        (paramStored s tag i value).bandNow := bandNow_congr rfl rfl rfl heldT
    subst hu
    let u := ({ paramStored s tag i value with sense := q, available := (paramStored s tag i value).capacity } : State).budgetPass
    have evaluated : (State.recompute { paramStored s tag i value with sense := q }).evalBand =
        { u with sense := { q with band := (paramStored s tag i value).bandNow } } := by
      rw [measured q heldB heldT, evalBand_pass, now]
    have rests : Quiet { u with sense := { q with band := (paramStored s tag i value).bandNow } } :=
      quiet_budgetPass (s := { paramStored s tag i value with sense := q, available := _ }) hq
    rw [acts, paramEffects_band h, show (if (stored s i value).temperature = s.params.temperature then _ else _) = q from
      hqs.symm, evaluated, reportPower_release rests, State.powerReport]
    dsimp only
    rw [power, heldB, heldT]
    simp only [true_and]
    rfl
  · have reports (t : State) (ht : Quiet t) (same : t.still = (paramStored s tag i value).still) :
        (t.reportPower s.sense).release = t := by
      have sense : t.sense = s.sense := congrArg Still.sense same
      rw [reportPower_release ht, sense, if_pos ⟨rfl, rfl⟩, telling_nil ht]
    rw [acts, paramEffects_reserve h]
    refine congrArg Host.Outcome.next ?_
    split
    · next fell => 
      rw [if_pos (by exact fell)]
      exact reports _ (quiet_serviceScan _ _ hq) (still_service _)
    · next fell =>
      rw [if_neg (by exact fell)]
      exact reports _ hq rfl
  · have kept : q.power = s.sense.power ∧ q.band = s.sense.band ∧ q.heldB = s.sense.heldB ∧ q.heldT = s.sense.heldT := by
      rw [hqs]
      split <;> exact ⟨rfl, rfl, rfl, rfl⟩
    obtain ⟨power, band, heldB, heldT⟩ := kept
    have effects := paramEffects_battery (s := s) (tag := tag) (value := value) h rfl
    rw [show (if (stored s i value).battery = s.params.battery then _ else _) = q from hqs.symm, measured q heldB heldT]
      at effects
    have passed : Quiet ({ paramStored s tag i value with sense := q, available := (paramStored s tag i value).capacity } :
        State).budgetPass := quiet_budgetPass (s := { paramStored s tag i value with sense := q, available := _ }) hq
    have sense := pass_sense
      { paramStored s tag i value with sense := q, available := (paramStored s tag i value).capacity }
    have params := pass_params
      { paramStored s tag i value with sense := q, available := (paramStored s tag i value).capacity }
    rw [acts, effects]
    refine ⟨fun still => ?_, fun changed on off u hu => ?_⟩
    all_goals
      generalize ({ paramStored s tag i value with sense := q, available := (paramStored s tag i value).capacity } :
        State).budgetPass = v at *
    · have entered : (if (s.params.battery && !(stored s i value).battery) = true then v.enterPower .normal else v) = v := by
        split
        · next both =>
          have off : (stored s i value).battery = false ∧ s.params.battery = true := by simpa [and_comm] using both
          have normal : v.sense.power = .normal := by
            rw [sense, power]
            exact still.resolve_right fun x => x.elim (by simp [off.2]) fun on => by
              rw [show (stored s i value).battery = true from on] at off
              simp at off
          rw [enterPower_plain (by simp [normal]), ← normal]
        · rfl
      rw [entered, reportPower_release passed, sense, power, band, if_pos ⟨rfl, rfl⟩, telling_nil passed]
    · subst hu
      have disabled : (s.params.battery && !(stored s i value).battery) = true := by
        rw [on, show (stored s i value).battery = false from off]
        rfl
      have entered : u.enterPower .normal = { u with
          sense := { q with power := .normal }
          ports := if s.sense.power = .survival then Vector.ofFn fun p => unscanned (u.port p) else u.ports } := by
        by_cases hs : s.sense.power = .survival
        · rw [enterPower_leaves (by rw [sense, power, hs]) (by simp), if_pos hs, sense]
        · rw [enterPower_plain (by simp [sense, power, hs]), if_neg hs, sense]
      have rests : Quiet (u.enterPower .normal) := quiet_enterPower .normal passed
      have unlike : ¬ (PowerState.normal = s.sense.power ∧ q.band = s.sense.band) := fun x => changed x.1.symm
      rw [if_pos disabled, reportPower_release rests, entered, if_neg unlike, State.powerReport]
      dsimp only
      rw [band, heldB, heldT]

/-! ## Valid readings (R149) -/

theorem quiet_telling (hq : Quiet s) (ms : List Message) : Quiet (telling s ms) := by
  exact (voice_telling (s := s) [] ms hq) ▸ quiet_voice

theorem telling_sense (ms : List Message) (q : Sense) :
    telling { s with sense := q } ms = { telling s ms with sense := q } := by
  rw [telling_eq, telling_eq]
  rfl

theorem exec_senseReading_valid {c : Channel} (hc : s.storeClearing = false) (hon : s.channelOn c = true) {v : Int}
    (hv : validReading c v = true) : exec (.senseReading c (some v)) s = .next (s.validStep c v) := by
  rw [exec_senseReading]
  unfold execSenseReading
  rw [if_neg (by simp [hc, hon])]
  simp only [hv, if_true]

/-- SENSE(OK) leaves before the pass when a fault was set (R149). -/
theorem faultCleared_eq (hq : Quiet s) (q : Sense) (fault : Bool) (c : Channel) :
    (if fault = true then ({ s with sense := q } : State).send (.sense c .ok) else { s with sense := q }) =
      { telling s (if fault = true then [.sense c .ok] else []) with sense := q } := by
  rw [← telling_sense]
  cases fault with
  | false => exact (telling_nil (t := { s with sense := q }) hq).symm
  | true =>
    have sent := (voice_send (s := { s with sense := q }) false [] [] (.sense c .ok)).trans (voice_telling _ _ hq)
    rwa [voice_begin (s := { s with sense := q }) hq] at sent

theorem nextPower_eq {p : Params} (ho : InOrder p) (before : PowerState) (b : Nat) :
    p.nextPower before b = powerAfter p before b := by
  obtain ⟨_, order, _⟩ := ho
  cases before <;> grind [Params.nextPower, powerAfter]

/-- The state in which a valid reading evaluates the power state or the band: the value is held, the fault cleared, and
the pass has run against the new capacity (R149, steps 1 to 3). -/
def measured (s : State) (q : Sense) (ms : List Message) : State :=
  ({ telling s ms with sense := q, available := ({ s with sense := q } : State).capacity } : State).budgetPass

theorem measured_eq (s : State) (q : Sense) (ms : List Message) :
    State.recompute { telling s ms with sense := q } = measured s q ms := by
  unfold measured State.recompute
  have params : (telling s ms).params = s.params := by rw [telling_eq]
  rw [capacity_same (s := ({ s with sense := q } : State)) (t := { telling s ms with sense := q }) params rfl rfl]

theorem measured_sense (s : State) (q : Sense) (ms : List Message) : (measured s q ms).sense = q := pass_sense _

theorem measured_params (s : State) (q : Sense) (ms : List Message) : (measured s q ms).params = s.params :=
  (pass_params _).trans (by rw [telling_eq])

theorem quiet_measured (hq : Quiet s) (q : Sense) (ms : List Message) : Quiet (measured s q ms) :=
  quiet_budgetPass (s := { telling s ms with sense := q, available := _ }) (quiet_telling hq ms)

theorem measured_evalBand (s : State) (q : Sense) (ms : List Message) :
    (measured s q ms).evalBand =
      { measured s q ms with sense := { q with band := ({ s with sense := q } : State).bandNow } } := by
  have band : (measured s q ms).bandNow = ({ s with sense := q } : State).bandNow :=
    bandNow_same (s := { s with sense := q }) (measured_params s q ms) (measured_sense s q ms)
  unfold State.evalBand
  rw [band, measured_sense]

theorem senseReading_battery (hq : Quiet s) (hc : s.storeClearing = false) (ho : InOrder s.params)
    (hon : s.params.battery = true) {b : Nat} (lo : 200 ≤ b) (hi : b ≤ 700)
    (hqs : q = { s.sense with heldB := some b, runB := 0, faultB := false })
    (hu : u = measured s q (if s.sense.faultB = true then [.sense .battery .ok] else [])) :
    exec (.senseReading .battery (some b)) s =
      .next ((u.enterPower (powerAfter s.params s.sense.power b)).reportPower s.sense) := by
  have valid : validReading .battery (b : Int) = true := by
    simp [validReading]
    omega
  have power : q.power = s.sense.power := by rw [hqs]
  have passed := (congrArg State.recompute (faultCleared_eq hq q s.sense.faultB .battery)).trans
    ((measured_eq s q _).trans hu.symm)
  have entered : s.validStep .battery b = (u.enterPower (u.params.nextPower u.sense.power b)).reportPower s.sense := by
    rw [← passed, hqs]
    rfl
  rw [exec_senseReading_valid (c := .battery) hc hon valid, entered, hu, measured_sense, measured_params, power,
    nextPower_eq ho]

theorem senseReading_temperature (hq : Quiet s) (hc : s.storeClearing = false) (hon : s.params.temperature = true) {v : Int}
    (lo : -50 ≤ v) (hi : v ≤ 100) (hqs : q = { s.sense with heldT := some v, runT := 0, faultT := false })
    (hu : u = measured s q (if s.sense.faultT = true then [.sense .temperature .ok] else [])) :
    exec (.senseReading .temperature (some v)) s = .next (u.evalBand.reportPower s.sense) := by
  have valid : validReading .temperature v = true := by
    simp [validReading, lo, hi]
  have passed := (congrArg State.recompute (faultCleared_eq hq q s.sense.faultT .temperature)).trans
    ((measured_eq s q _).trans hu.symm)
  have entered : s.validStep .temperature v = u.evalBand.reportPower s.sense := by
    rw [← passed, hqs]
    rfl
  rw [exec_senseReading_valid (c := .temperature) hc hon valid, entered]

/-- Settles O41: after the pass a battery reading writes the power state, a temperature reading the band. -/
theorem validReadings : Obligations.ValidReadings := by
  refine fun s hq hc ho => ⟨fun b hon lo hi plain q hqs u hu => ?_, fun v hon lo hi q hqs u hu => ?_⟩
  · have hu : u = measured s q (if s.sense.faultB = true then [.sense .battery .ok] else []) := hu
    have sense : u.sense = q := by rw [hu, measured_sense]
    have kept : q.power = s.sense.power ∧ q.band = s.sense.band ∧ q.heldB = some b ∧ q.heldT = s.sense.heldT := by
      rw [hqs]
      exact ⟨rfl, rfl, rfl, rfl⟩
    obtain ⟨power, band, heldB, heldT⟩ := kept
    have quiet : Quiet u := hu ▸ quiet_measured hq q _
    have entered := enterPower_plain (s := u) (after := powerAfter s.params s.sense.power b) (by rw [sense, power]; exact plain)
    rw [sense] at entered
    rw [senseReading_battery hq hc ho hon lo hi hqs hu, reportPower_telling (quiet_enterPower _ quiet), entered,
      State.powerReport]
    dsimp only
    rw [band, heldB, heldT]
    simp only [and_true]
  · have hu : u = measured s q (if s.sense.faultT = true then [.sense .temperature .ok] else []) := hu
    have kept : q.power = s.sense.power ∧ q.heldB = s.sense.heldB ∧ q.heldT = some v := by
      rw [hqs]
      exact ⟨rfl, rfl, rfl⟩
    obtain ⟨power, heldB, heldT⟩ := kept
    have evaluated : u.evalBand = { u with sense := { q with band := ({ s with sense := q } : State).bandNow } } := by
      rw [hu, measured_evalBand]
    have quiet : Quiet u.evalBand := hu ▸ quiet_measured hq q _
    rw [senseReading_temperature hq hc hon lo hi hqs hu, reportPower_telling quiet, evaluated, State.powerReport]
    dsimp only
    rw [power, heldB, heldT]
    simp only [true_and]

end Sys2Proof.Machine
end

section
/-!
PROOFS. Survival.lean: a battery reading that takes the cabinet into SURVIVAL or out of it (O42).
-/
namespace Sys2Proof.Machine

open Sys2Proof.Safety

variable {s t u : State} {p : PortNo} {e : EntryNo} {c d : Binding} {q : Sense} {ps : List PortNo}

/-! ## A pass leaves the calls of unlisted handles alone -/

/-- What each move of a pass keeps, the pass keeps. -/
theorem pass_keeps {P : State → Prop} (shed : ∀ {s r}, P s → s.ringList.getLast? = some r → P (s.shedTail r))
    (start : ∀ {s q}, P s → s.ringQueue.head? = some q → P (s.startHead q)) (h : P s) : P s.budgetPass := by
  have sheds (n : Nat) {s : State} (h : P s) : P (s.shedStep n) := by
    induction n generalizing s with
    | zero => exact h
    | succ n ih =>
      unfold State.shedStep
      split
      · split
        · next r hr => exact ih (shed h hr)
        · exact h
      · exact h
  have starts (n : Nat) {s : State} (h : P s) : P (s.admitStep n) := by
    induction n generalizing s with
    | zero => exact h
    | succ n ih =>
      unfold State.admitStep
      split
      · next q rest hq =>
        split
        · exact ih (start h (by rw [hq]; rfl))
        · exact h
      · exact h
  exact starts _ (sheds _ h)

/-- A call keeps its port, so the search for the call of a port finds what it found, unless that is the one written. -/
theorem call_rewritten (he : (s.entry e).binding = some c) (hd : d.port = c.port)
    (hne : ∀ f b, s.call p = some (f, b) → f ≠ e) : (s.writeEntry e (some d)).call p = s.call p := by
  by_cases hp : c.port = p
  · have here : (match (s.entry e).binding with
        | some b => if decide (b.port = p) then some (e, b) else none
        | none => none) = some (e, c) := by
      rw [he]
      exact if_pos (decide_eq_true hp)
    cases hc : s.call p with
    | none =>
      have miss := List.findSome?_eq_none_iff.mp hc e (List.mem_finRange e)
      exact absurd (here.symm.trans miss) (by simp)
    | some x =>
      obtain ⟨f, b⟩ := x
      obtain ⟨before, g, after, all, hit, miss⟩ := List.findSome?_eq_some_iff.mp hc
      have found : g = f := by
        split at hit
        · split at hit
          · cases hit
            rfl
          · cases hit
        · cases hit
      subst found
      refine List.findSome?_eq_some_iff.mpr ⟨before, g, after, all, ?_, fun k hk => ?_⟩
      · rw [entry_writeEntry_at, if_neg (hne g b hc)]
        exact hit
      · have apart : k ≠ e := by
          rintro rfl
          exact absurd (here.symm.trans (miss k hk)) (by simp)
        rw [entry_writeEntry_at, if_neg apart]
        exact miss k hk
  · refine findBinding_set (fun x hx => ?_) fun x hx => ?_
    · rw [he] at hx
      cases hx
      exact decide_eq_false hp
    · cases hx
      exact decide_eq_false (hd ▸ hp)

/-- The call of this port, if it has one, stands in no ringing list, and the listed calls read good. -/
abbrev Aside (s : State) (p : PortNo) : Prop := ListedRead s ∧ ∀ f b, s.call p = some (f, b) → NotRinging s b.handle

theorem Aside.rewritten (h : Aside s p) {k : Nat} (named : Named s k e c) (listed : ¬ NotRinging s k)
    (hd : d.port = c.port) : (s.writeEntry e (some d)).call p = s.call p := by
  obtain ⟨found, hk⟩ := findBinding_found named.1
  refine call_rewritten found hd fun f b hc => ?_
  rintro rfl
  have same := (findBinding_found hc).1
  rw [found] at same
  cases same
  exact listed ((show c.handle = k by simpa using hk) ▸ h.2 f c hc)

/-- A pass leaves the call of a port where it is, when no ringing list names it. -/
theorem pass_call (h : Aside s p) : s.budgetPass.call p = s.call p := by
  have keeps : ∀ {t : State}, Aside t p ∧ t.call p = s.call p → Aside t.budgetPass p ∧ t.budgetPass.call p = s.call p := by
    refine fun {t} ht => pass_keeps (P := fun t => Aside t p ∧ t.call p = s.call p) ?_ ?_ ht
    · rintro t r ⟨aside, same⟩ hr
      have mem := List.mem_of_getLast? hr
      cases hb : t.byHandle r.handle with
      | none =>
        rw [shedTail_gone hb]
        exact ⟨⟨aside.1.narrow (narrower_dropRinging _) rfl, fun f b hc => narrower_dropRinging _ _ (aside.2 f b hc)⟩, same⟩
      | some x =>
        have named := aside.1.named hb (listed_of_ringing mem)
        rw [shedTail_named named]
        have call : (shedOf t r x.1 x.2).call p = t.call p := aside.rewritten named (listed_of_ringing mem) rfl
        refine ⟨⟨aside.1.written (e := x.1) (narrower_shedOf mem) rfl, fun f b hc => ?_⟩, call.trans same⟩
        exact narrower_shedOf mem _ (aside.2 f b (call ▸ hc))
    · rintro t q ⟨aside, same⟩ hq
      have mem := List.mem_of_mem_head? hq
      cases hb : t.byHandle q.handle with
      | none =>
        rw [startHead_gone hb]
        exact ⟨⟨aside.1.narrow (narrower_dropQueued _) rfl, fun f b hc => narrower_dropQueued _ _ (aside.2 f b hc)⟩, same⟩
      | some x =>
        have named := aside.1.named hb (listed_of_queued mem)
        rw [startHead_named named]
        have call : (startOf t q x.1 x.2).call p = t.call p := aside.rewritten named (listed_of_queued mem) rfl
        refine ⟨⟨aside.1.written (e := x.1) (narrower_startOf mem) rfl, fun f b hc => ?_⟩, call.trans same⟩
        exact narrower_startOf mem _ (aside.2 f b (call ▸ hc))
  exact (keeps ⟨h, rfl⟩).2

/-! ## One port of the scan (R156) -/

theorem scanned_congr (hl : t.line p = s.line p) (hp : t.port p = s.port p) : scanned t p = scanned s p := by
  unfold scanned
  rw [hl, hp]

/-- A record that is not read, or reads good, has its port parked or marked. -/
theorem parkPort_scans (h : ¬ ScanFinds s p) : s.parkPort p = s.setPort p (scanned s p) := by
  have self : s = s.setPort p (s.port p) := (setPort_self s p).symm
  unfold State.parkPort
  by_cases hv : (s.port p).sup = .vacant
  · have same : scanned s p = s.port p := by
      unfold scanned
      split
      · rfl
      · simp only [hv]
    rw [if_pos (.inl hv), same]
    exact self
  · by_cases hw : (s.line p).withdrawn = true
    · rw [if_pos (.inr hw), scanned, if_pos (.inl hw)]
      exact self
    · have good : ¬ (s.line p).damaged = true := fun x => h ⟨hv, by simpa using hw, x⟩
      rw [if_neg (by simp [hv, hw]), if_neg good]
      by_cases hk : (s.line p).status ≠ .vacant ∧ (s.line p).parkableClass = true
      · have kept : ¬ ((s.line p).withdrawn = true ∨ (s.line p).status = .vacant ∨ (s.line p).cls = .priority ∨
            (s.line p).keep = true) := by
          obtain ⟨status, cls⟩ := hk
          simp only [LineRecord.parkableClass, Bool.and_eq_true, decide_eq_true_eq, Bool.not_eq_true'] at cls
          simp [hw, status, cls.1, cls.2]
        rw [if_pos hk, scanned, if_neg kept]
        simp only [State.place, State.mark, place_unfed _ (st := .parked) rfl]
        generalize s.port p = x at self hv ⊢
        obtain ⟨hook, classifier, pulses, makeTimer, sup, parkPending, testLatch, injector, lineClosed⟩ := x
        cases sup with
        | vacant => exact absurd rfl hv
        | parked => exact self
        | quarantine => exact self
        | _ => rfl
      · have kept : (s.line p).withdrawn = true ∨ (s.line p).status = .vacant ∨ (s.line p).cls = .priority ∨
            (s.line p).keep = true := by
          by_cases status : (s.line p).status = .vacant
          · exact .inr (.inl status)
          · cases hc : (s.line p).cls with
            | priority => exact .inr (.inr (.inl rfl))
            | ordinary =>
              have keep : (s.line p).keep = true := by
                refine Classical.byContradiction fun none => ?_
                exact hk ⟨status, by simp [LineRecord.parkableClass, hc, none]⟩
              exact .inr (.inr (.inr keep))
        rw [if_neg hk, scanned, if_pos kept]
        exact self

theorem parkPort_finds (h : ScanFinds s p) : s.parkPort p = s.lineActions p := by
  obtain ⟨sup, used, damaged⟩ := h
  unfold State.parkPort
  rw [if_neg (by simp [sup, used]), if_pos damaged]

theorem scanFinds_congr (hl : t.line p = s.line p) (hp : t.port p = s.port p) : ScanFinds t p ↔ ScanFinds s p := by
  unfold ScanFinds
  rw [hl, hp]

/-! ## The scan (R157) -/

/-- What the scan leaves of a port whose call it does not touch. -/
def scanStep (s t : State) (p : PortNo) : State :=
  if ScanFinds s p then quarantining t p else porting t p (scanned s p)

/-- Ports that the scan has still to come to stand as it found them, and no live call is under a damaged record. -/
abbrev Unscanned (s t : State) (ps : List PortNo) : Prop :=
  ∀ p ∈ ps, t.line p = s.line p ∧ t.port p = s.port p ∧
    (ScanFinds s p → ∀ e c, t.call p = some (e, c) → c.phase = .clearing)

theorem scanStep_elsewhere (s t : State) {r : PortNo} (h : r ≠ p) :
    (scanStep s t p).line r = t.line r ∧ (scanStep s t p).port r = t.port r ∧ (scanStep s t p).call r = t.call r := by
  unfold scanStep
  split
  · exact ⟨(State.line_setLine t p r _).trans (if_neg h), (State.port_setPort t p r _).trans (if_neg h), rfl⟩
  · exact ⟨rfl, (State.port_setPort t p r _).trans (if_neg h), rfl⟩

theorem parkPort_voice (held : Bool) (x y : List Message) (h : Unscanned s t [p]) :
    (voice held t x y).parkPort p =
      voice held (scanStep s t p) x (y ++ if ScanFinds s p then [.integrity .line p.val 0] else []) := by
  obtain ⟨line, port, idle⟩ := h p (by simp)
  by_cases hf : ScanFinds s p
  · have finds : ScanFinds (voice held t x y) p := (scanFinds_congr (s := s) line port).mpr hf
    rw [parkPort_finds finds, lineActions_idle held x y (idle hf), if_pos hf, scanStep, if_pos hf]
  · have scans : ¬ ScanFinds (voice held t x y) p := mt (scanFinds_congr (s := s) line port).mp hf
    rw [parkPort_scans scans, if_neg hf, scanStep, if_neg hf, List.append_nil,
      scanned_congr (s := s) (t := voice held t x y) line port]
    rfl

theorem parkPorts_voice (held : Bool) (once : ps.Nodup) (x y : List Message) (h : Unscanned s t ps) :
    ps.foldl State.parkPort (voice held t x y) =
      voice held (ps.foldl (scanStep s) t) x
        (y ++ (ps.filter fun p => decide (ScanFinds s p)).map fun p => .integrity .line p.val 0) := by
  induction ps generalizing t y with
  | nil => exact congrArg (voice held t x) (List.append_nil y).symm
  | cons p ps ih =>
    obtain ⟨apart, once⟩ := List.nodup_cons.mp once
    have rest : Unscanned s (scanStep s t p) ps := fun r hr => by
      obtain ⟨line, port, call⟩ := scanStep_elsewhere s t (p := p) (r := r) fun x => apart (x ▸ hr)
      obtain ⟨line', port', idle⟩ := h r (by simp [hr])
      exact ⟨line.trans line', port.trans port', by rw [call]; exact idle⟩
    rw [List.foldl_cons, parkPort_voice held x y fun r hr => h r (by simp_all), ih once _ rest, List.foldl_cons,
      List.append_assoc]
    by_cases hf : ScanFinds s p
    · rw [if_pos hf, List.filter_cons_of_pos (by simpa using hf)]
      rfl
    · rw [if_neg hf, List.filter_cons_of_neg (by simpa using hf)]
      rfl

/-! ## What the scan leaves -/

theorem scanSteps_frame (s t : State) (ps : List PortNo) :
    ∃ ls ks ws vs n, ps.foldl (scanStep s) t =
      { t with lines := ls, keyIndex := ks, owq := ws, ports := vs, counters := { t.counters with integrityFaults := n } } := by
  induction ps generalizing t with
  | nil => exact ⟨_, _, _, _, _, rfl⟩
  | cons p ps ih =>
    obtain ⟨ls, ks, ws, vs, n, h⟩ := ih (scanStep s t p)
    refine ⟨ls, ks, ws, vs, n, ?_⟩
    rw [List.foldl_cons, h]
    unfold scanStep
    split <;> rfl

theorem scanSteps_count (s t : State) (ps : List PortNo) :
    (ps.foldl (scanStep s) t).counters.integrityFaults =
      if (ps.filter fun p => decide (ScanFinds s p)).length = 0 then t.counters.integrityFaults
      else min (t.counters.integrityFaults + (ps.filter fun p => decide (ScanFinds s p)).length) 65535 := by
  induction ps generalizing t with
  | nil => rfl
  | cons p ps ih =>
    rw [List.foldl_cons, ih]
    by_cases hf : ScanFinds s p
    · have counted : (scanStep s t p).counters.integrityFaults = min (t.counters.integrityFaults + 1) 65535 := by
        rw [scanStep, if_pos hf]
        rfl
      rw [counted, List.filter_cons_of_pos (by simpa using hf), List.length_cons, if_neg (Nat.succ_ne_zero _)]
      split <;> omega
    · have counted : (scanStep s t p).counters.integrityFaults = t.counters.integrityFaults := by
        rw [scanStep, if_neg hf]
        rfl
      rw [counted, List.filter_cons_of_neg (by simpa using hf)]

theorem scanSteps_owq (s t : State) (ps : List PortNo) :
    (ps.foldl (scanStep s) t).owq = t.owq.filter fun w => !decide (w.port ∈ ps ∧ ScanFinds s w.port) := by
  induction ps generalizing t with
  | nil => exact (List.filter_eq_self.mpr fun w _ => by simp).symm
  | cons p ps ih =>
    have first : (scanStep s t p).owq = t.owq.filter fun w => !decide (w.port = p ∧ ScanFinds s p) := by
      unfold scanStep
      by_cases hf : ScanFinds s p
      · rw [if_pos hf]
        exact List.filter_congr fun w _ => by simp [hf]
      · rw [if_neg hf]
        exact (List.filter_eq_self.mpr fun w _ => by simp [hf]).symm
    rw [List.foldl_cons, ih, first, List.filter_filter]
    refine List.filter_congr fun w _ => ?_
    by_cases hw : w.port = p
    · subst hw
      by_cases hf : ScanFinds s w.port <;> simp [hf]
    · simp [hw]

section
variable (s t : State) (p : PortNo)

theorem scanAll_line : (allPorts.foldl (scanStep s) t).line p =
    if ScanFinds s p then { t.line p with withdrawn := true } else t.line p := by
  have here := foldl_at (f := scanStep s) (State.line · p) p
    (g := fun r => if ScanFinds s p then { r with withdrawn := true } else r)
    (fun t => by
      unfold scanStep
      split
      · exact (State.line_setLine t p p _).trans (if_pos rfl)
      · rfl)
    (fun t b h => (scanStep_elsewhere s t (Ne.symm h)).1) (List.nodup_finRange 48) t
  exact here.trans (if_pos (List.mem_finRange p))

theorem scanAll_port : (allPorts.foldl (scanStep s) t).port p =
    if ScanFinds s p then quarantined (t.port p) else scanned s p := by
  have here := foldl_at (f := scanStep s) (State.port · p) p
    (g := fun q => if ScanFinds s p then quarantined q else scanned s p)
    (fun t => by
      unfold scanStep
      split
      · exact port_porting t p _
      · exact port_porting t p _)
    (fun t b h => (scanStep_elsewhere s t (Ne.symm h)).2.1) (List.nodup_finRange 48) t
  exact here.trans (if_pos (List.mem_finRange p))

theorem scanAll_indexKey : (allPorts.foldl (scanStep s) t).indexKey p =
    if ScanFinds s p then none else t.indexKey p := by
  have here := foldl_at (f := scanStep s) (State.indexKey · p) p
    (g := fun k => if ScanFinds s p then none else k)
    (fun t => by
      unfold scanStep
      split
      · exact (State.indexKey_setIndex t p p none).trans (if_pos rfl)
      · rfl)
    (fun t b h => by
      unfold scanStep
      split
      · exact (State.indexKey_setIndex t b p none).trans (if_neg (Ne.symm h))
      · rfl) (List.nodup_finRange 48) t
  exact here.trans (if_pos (List.mem_finRange p))

end

/-- The scan of a survival, when it finds damage and touches no live call (R156, R157). -/
theorem scanAll_eq {s t : State} {found : List PortNo}
    (hfound : found = (List.finRange 48).filter fun p => decide (ScanFinds s p)) (some : found ≠ []) :
    allPorts.foldl (scanStep s) t =
      { faulted t found.length with
        lines := Vector.ofFn fun p => if ScanFinds s p then { t.line p with withdrawn := true } else t.line p
        keyIndex := Vector.ofFn fun p => if ScanFinds s p then none else t.indexKey p
        owq := t.owq.filter fun w => !decide (ScanFinds s w.port)
        ports := Vector.ofFn fun p => if ScanFinds s p then quarantined (t.port p) else scanned s p } := by
  have line := scanAll_line s t
  have port := scanAll_port s t
  have index := scanAll_indexKey s t
  have queue := scanSteps_owq s t allPorts
  have count := scanSteps_count s t allPorts
  obtain ⟨ls, ks, ws, vs, n, h⟩ := scanSteps_frame s t allPorts
  have nonzero : found.length ≠ 0 := fun x => some (List.eq_nil_of_length_eq_zero x)
  rw [h] at line port index queue count ⊢
  have lines : ls = Vector.ofFn fun p => if ScanFinds s p then { t.line p with withdrawn := true } else t.line p :=
    Vector.ext fun i hi => by
      rw [Vector.getElem_ofFn]
      exact line ⟨i, hi⟩
  have ports : vs = Vector.ofFn fun p => if ScanFinds s p then quarantined (t.port p) else scanned s p :=
    Vector.ext fun i hi => by
      rw [Vector.getElem_ofFn]
      exact port ⟨i, hi⟩
  have keys : ks = Vector.ofFn fun p => if ScanFinds s p then none else t.indexKey p :=
    Vector.ext fun i hi => by
      rw [Vector.getElem_ofFn]
      exact index ⟨i, hi⟩
  have owq : ws = t.owq.filter fun w => !decide (ScanFinds s w.port) :=
    queue.trans (List.filter_congr fun w _ => by simp [allPorts])
  have counted : n = min (t.counters.integrityFaults + found.length) 65535 :=
    count.trans (by rw [show allPorts.filter (fun p => decide (ScanFinds s p)) = found from hfound.symm, if_neg nonzero])
  rw [lines, ports, keys, owq, counted]
  rfl

/-- A scan over ports that finds no damage parks and marks them, one by one. -/
theorem parkPorts_aside (held : Bool) (x y : List Message) (once : ps.Nodup)
    (h : ∀ p ∈ ps, ¬ ScanFinds s p ∧ t.line p = s.line p ∧ t.port p = s.port p) :
    ps.foldl State.parkPort (voice held t x y) =
      voice held { t with ports := Vector.ofFn fun p => if p ∈ ps then scanned s p else t.port p } x y := by
  have nothing : (ps.filter fun p => decide (ScanFinds s p)) = [] :=
    List.filter_eq_nil_iff.mpr fun p hp => by simpa using (h p hp).1
  have steps : ps.foldl (scanStep s) t = { t with ports := Vector.ofFn fun p => if p ∈ ps then scanned s p else t.port p } :=
    setPorts_list (g := fun p _ => scanned s p) (fun v p hp => by rw [scanStep, if_neg (h p hp).1]; rfl) once
  rw [parkPorts_voice held once x y fun p hp => ⟨(h p hp).2.1, (h p hp).2.2, fun hf => absurd hf (h p hp).1⟩, nothing,
    steps, List.map_nil, List.append_nil]

theorem enterPower_enters (h : s.sense.power ≠ .survival) :
    s.enterPower .survival =
      allPorts.foldl State.parkPort { s with sense := { s.sense with power := .survival } } :=
  if_pos ⟨h, rfl⟩

theorem listedRead_empty (hq : s.ringQueue = []) (hr : s.ringList = []) : ListedRead s := fun _ _ _ listed =>
  absurd ⟨by simp [hr], by simp [hq]⟩ listed

/-- A scan over ports that meets the damaged record of one live call, and no other (R156, R157, R179). -/
theorem parkPorts_call {before after : List PortNo} (hq : Quiet t) (once : (before ++ p :: after).Nodup)
    (same : ∀ r, t.line r = s.line r ∧ t.port r = s.port r) (only : ∀ r, ScanFinds s r ↔ r = p) (call : Holds t p e c)
    (hp : c.phase ≠ .clearing) (hr : Leavable t c.handle) :
    (before ++ p :: after).foldl State.parkPort t =
      voice false
        { callLineLost (leftRinging t c.handle) e c with
          ports := Vector.ofFn fun r =>
            if r = p then quarantined { s.port p with injector := .idle }
            else if r ∈ before ++ p :: after then scanned s r else s.port r }
        [.clear c.handle .storeFault c.meterCount] [.integrity .line p.val c.handle] := by
  obtain ⟨apart, _⟩ := List.nodup_cons.mp (List.perm_middle.nodup_iff.mp once)
  obtain ⟨onceBefore, onceRest, disjoint⟩ := List.nodup_append.mp once
  have onceAfter := (List.nodup_cons.mp onceRest).2
  have early : p ∉ before := fun x => apart (by simp [x])
  have late : p ∉ after := fun x => apart (by simp [x])
  obtain rfl := call_port call.1
  generalize hw : (Vector.ofFn fun r => if r ∈ before then scanned s r else t.port r) = w
  have here : w[c.port] = t.port c.port := by simp [← hw, early]
  have finds : ScanFinds (voice false { t with ports := w } [] []) c.port :=
    (scanFinds_congr (s := s) (t := voice false { t with ports := w } [] []) (same c.port).1 (here.trans (same c.port).2)).mpr ((only c.port).mpr rfl)
  have frame : Framed t fun x => { x with ports := w } := ⟨⟨rfl, rfl, rfl⟩, fun _ => rfl⟩
  have found := lineActions_clears (s := { t with ports := w }) false [] call hp (frame.leavable hr)
  rw [leftRinging_framed frame hr] at found
  rw [List.foldl_append, List.foldl_cons]
  conv =>
    lhs
    rw [← voice_begin hq]
  rw [parkPorts_aside (s := s) false [] [] onceBefore fun r hr => ⟨fun x => early ((only r).mp x ▸ hr), same r⟩, hw,
    parkPort_finds finds, found, leftRinging_onto hr]
  generalize leftRinging t c.handle = x
  have rest : ∀ r ∈ after, ¬ ScanFinds s r ∧
      State.line (callLineLost { onto t x with ports := w } e c) r = s.line r ∧
      State.port (callLineLost { onto t x with ports := w } e c) r = s.port r := fun r hr => by
    have other : r ≠ c.port := fun x => late (x ▸ hr)
    have fresh : w[r] = t.port r := by
      simp [← hw, show r ∉ before from fun x => disjoint r x r (by simp [hr]) rfl]
    exact ⟨fun x => other ((only r).mp x), (State.line_setLine t c.port r _).trans ((if_neg other).trans (same r).1),
      (State.port_setPort { t with ports := w } c.port r _).trans ((if_neg other).trans (fresh.trans (same r).2))⟩
  rw [List.nil_append, parkPorts_aside (s := s) false _ _ onceAfter rest]
  refine congrArg (fun v : Vector Port 48 => voice false { callLineLost (onto t x) e c with ports := v } _ _) ?_
  refine Vector.ext fun i hi => ?_
  rw [Vector.getElem_ofFn, Vector.getElem_ofFn]
  generalize (⟨i, hi⟩ : PortNo) = r
  have left : State.port (callLineLost { onto t x with ports := w } e c) r =
      if r = c.port then quarantined { w[c.port] with injector := .idle } else w[r] :=
    State.port_setPort { t with ports := w } c.port r _
  have first : w[r] = if r ∈ before then scanned s r else s.port r := by simp [← hw, (same r).2]
  rw [left, here, (same c.port).2, first]
  by_cases h : r = c.port
  · rw [if_neg (by rw [h]; exact late), if_pos h, if_pos h]
  · rw [if_neg h, if_neg h]
    by_cases hb : r ∈ before <;> by_cases ha : r ∈ after <;> simp [hb, ha, h]

theorem enterPower_sense {u : State} {q : Sense} (h : u.sense = q) (hp : q.power ≠ .survival) :
    u.enterPower .survival = allPorts.foldl State.parkPort { u with sense := { q with power := .survival } } :=
  h ▸ enterPower_enters (h ▸ hp)

/-- The scan's messages are followed by the report of the new power state (R158, R160). -/
theorem reportPower_voice (hq : Quiet t) {before : Sense} (h : t.sense.power ≠ before.power) (x y : List Message) :
    (voice false t x y).reportPower before = telling t (x ++ y ++ [t.powerReport]) := by
  have sense : (telling t (x ++ y)).sense = t.sense := by rw [telling_eq]
  have report : (telling t (x ++ y)).powerReport = t.powerReport := by
    unfold State.powerReport
    rw [sense]
  rw [voice_telling x y hq, reportPower_telling (quiet_telling hq _), sense, if_neg (fun k => h k.1), report,
    telling_telling]

/-- Settles O42: the pass keeps ports, lines and queue, so the scan that follows reads what the reading found. -/
theorem survivalParks : Obligations.SurvivalParks := by
  intro s b hq hc ho hon lo hi q hqs u hu
  have hu : u = measured s q (if s.sense.faultB = true then [.sense .battery .ok] else []) := hu
  have acts := senseReading_battery hq hc ho hon lo hi hqs hu
  have sense : u.sense = q := by rw [hu, measured_sense]
  have kept : q.power = s.sense.power ∧ q.band = s.sense.band ∧ q.heldB = some b ∧ q.heldT = s.sense.heldT := by
    rw [hqs]
    exact ⟨rfl, rfl, rfl, rfl⟩
  obtain ⟨power, band, heldB, heldT⟩ := kept
  have quiet : Quiet u := hu ▸ quiet_measured hq q _
  refine ⟨fun outside into lists report hreport => ?_, fun inside out => ?_⟩
  · rw [into, enterPower_sense sense (power ▸ outside)] at acts
    let m : State := { s with
      out := said s (if s.sense.faultB = true then [.sense .battery .ok] else [])
      sense := q, available := ({ s with sense := q } : State).capacity }
    have passed : u = m.budgetPass := by
      rw [hu, measured, telling_eq]
    have read : ListedRead m := lists.elim (fun x => listedRead_empty x.1 x.2) EntriesRead.listed
    have pass : u = onto m u := passed ▸ budgetPass_onto read
    have same (r : PortNo) : u.line r = s.line r ∧ u.port r = s.port r ∧ u.indexKey r = s.indexKey r := by
      rw [pass]
      exact ⟨rfl, rfl, rfl⟩
    have queue : u.owq = s.owq := by
      rw [pass]
      rfl
    have aside (r : PortNo) (h : ∀ e c, s.call r = some (e, c) → NotRinging s c.handle) : u.call r = s.call r :=
      passed ▸ pass_call (s := m) ⟨read, h⟩
    have reported (x y : List Message) {t : State} (ht : t.sense = { q with power := .survival }) (hq : Quiet t) :
        (voice false t x y).reportPower s.sense = telling t (x ++ y ++ [report]) := by
      rw [reportPower_voice hq (by rw [ht]; exact fun k => outside k.symm), State.powerReport, ht, hreport, ← heldB, ← band,
        ← heldT]
    refine ⟨fun good => ?_, fun idle found hfound damage => ?_, fun p e c only call hp leaves => ?_⟩
    · have nowhere (p : PortNo) : ¬ ScanFinds s p := fun ⟨sup, used, damaged⟩ =>
        (good p).elim (fun h => h.elim (by simp [used]) (by simp [damaged])) sup
      have scan := parkPorts_aside (s := s) (t := { u with sense := { q with power := .survival } }) false [] []
        (List.nodup_finRange 48) fun p _ => ⟨nowhere p, (same p).1, (same p).2.1⟩
      have every : (fun p => if p ∈ List.finRange 48 then scanned s p else u.port p) = scanned s :=
        funext fun p => if_pos (List.mem_finRange p)
      rw [voice_begin (by exact quiet)] at scan
      rw [acts, show allPorts = List.finRange 48 from rfl, scan, reported [] [] rfl (by exact quiet)]
      exact congrArg (fun g : PortNo → Port => Host.Outcome.next
        (telling { u with sense := { q with power := .survival }, ports := Vector.ofFn g } [report])) every
    · have scan := parkPorts_voice (s := s) (t := { u with sense := { q with power := .survival } }) false
        (List.nodup_finRange 48) [] [] fun p _ => ⟨(same p).1, (same p).2.1, fun hf e c hc =>
          (idle p hf e c ((aside p fun e c hc => (idle p hf e c hc).2) ▸ hc)).1⟩
      rw [voice_begin (by exact quiet), ← hfound,
        show (List.finRange 48).foldl (scanStep s) _ = _ from scanAll_eq hfound damage] at scan
      rw [acts, show allPorts = List.finRange 48 from rfl, scan, reported [] _ rfl (by exact quiet)]
      have lines : (fun p => if ScanFinds s p then { u.line p with withdrawn := true } else u.line p) =
          fun p => if ScanFinds s p then { s.line p with withdrawn := true } else s.line p :=
        funext fun p => by rw [(same p).1]
      have ports : (fun p => if ScanFinds s p then quarantined (u.port p) else scanned s p) =
          fun p => if ScanFinds s p then quarantined (s.port p) else scanned s p :=
        funext fun p => by rw [(same p).2.1]
      have keys : (fun p => if ScanFinds s p then none else u.indexKey p) =
          fun p => if ScanFinds s p then none else s.indexKey p :=
        funext fun p => by rw [(same p).2.2]
      rw [← lines, ← ports, ← keys, ← queue]
      rfl
    · obtain ⟨before, after, all⟩ := List.append_of_mem (List.mem_finRange p)
      have once : (before ++ p :: after).Nodup := by
        rw [← all]
        exact List.nodup_finRange 48
      have member (r : PortNo) : r ∈ before ++ p :: after := by
        rw [← all]
        exact List.mem_finRange r
      have leavable : Leavable u c.handle := leavable_of_read (leaves.imp_right fun x => passed ▸ (budgetPass_keeps (s := m) x).reads)
      have frame : Framed u fun x => { x with sense := { q with power := .survival } } := ⟨⟨rfl, rfl, rfl⟩, fun _ => rfl⟩
      have scan := parkPorts_call (s := s) (t := { u with sense := { q with power := .survival } }) (by exact quiet) once
        (fun r => ⟨(same r).1, (same r).2.1⟩) only call hp (frame.leavable leavable)
      have every : (fun r => if r = p then quarantined { s.port p with injector := .idle }
          else if r ∈ before ++ p :: after then scanned s r else s.port r) =
          fun r => if r = p then quarantined { s.port p with injector := .idle } else scanned s r :=
        funext fun r => by rw [if_pos (member r)]
      rw [leftRinging_framed frame leavable, every] at scan
      have rests : Quiet (callLineLost (leftRinging u c.handle) e c) := by
        rw [leftRinging_onto leavable]
        exact quiet
      rw [acts, show allPorts = before ++ p :: after from all, scan, reported _ _ (by rfl) (by exact rests)]
      rfl
  · rw [acts, enterPower_leaves (by rw [sense, power, inside]) out, reportPower_telling (by exact quiet), sense]
    rw [if_neg (by exact fun k => out (k.1.trans inside)), State.powerReport]
    dsimp only
    rw [band, heldB, heldT]

end Sys2Proof.Machine
end

section
/-!
PROOFS. Retirement.lean: the normal retirement of a binding (O26), and a deferred cease that completes in it (O27).
-/
namespace Sys2Proof.Machine

open Sys2Proof.Safety

variable {s t u v : State} {p : PortNo} {e : EntryNo} {b : Binding} {tag : Nat} {ms : List Message}

/-! ## The steps of a retirement (R89) -/

/-- Slot, entry, injector and port of a binding that is given up, its slot record good: steps 4 to 6 of a retirement. -/
def discharged (s : State) (e : EntryNo) (b : Binding) : State :=
  { s with
    slots := (retired s e b).slots, pool := (retired s e b).pool, entries := (retired s e b).entries
    ports := (retired s e b).ports }

theorem discharge_eq (hs : (s.slot b.slot).damaged = false) (e : EntryNo) :
    (((s.stopInjector b.port).returnSlot b).writeEntry e none).settle b.port = discharged s e b := by
  have returned : (s.stopInjector b.port).returnSlot b = (s.stopInjector b.port).returnGoodSlot b.slot :=
    if_neg (by simp [show ((s.stopInjector b.port).slot b.slot).damaged = false from hs])
  have port : (((s.stopInjector b.port).returnGoodSlot b.slot).writeEntry e none).port b.port =
      { s.port b.port with injector := .idle } := by
    unfold State.returnGoodSlot
    split <;> exact port_porting s b.port _
  rw [returned, State.settle_eq, port]
  unfold State.returnGoodSlot discharged retired
  by_cases hb : (s.slot b.slot).blockPending = true
  · rw [if_pos (by exact hb)]
    simp only [if_pos hb]
    exact porting_porting ((s.blockSlot b.slot).writeEntry e none) b.port _ _
  · rw [if_neg (by exact hb)]
    simp only [if_neg hb]
    exact porting_porting ((s.freeSlot b.slot).writeEntry e none) b.port _ _

/-- A retirement, once the binding is out of the ringing lists and the fold is made (R89). -/
theorem retire_eq (left : s.leaveRinging State.budgetPass b.handle = u) (folded : u.fold b = v)
    (slots : v.slots = s.slots) (hs : (s.slot b.slot).damaged = false) :
    s.retire e b = served s b ((discharged v e b).completeCease b.port b.handle) := by
  have slot : v.slot b.slot = s.slot b.slot := congrArg (fun x : Vector Slot 15 => x[b.slot]) slots
  unfold State.retire
  dsimp only
  rw [left, folded, discharge_eq (slot ▸ hs), show (v.stopInjector b.port).slot b.slot = s.slot b.slot from slot, hs]
  unfold State.serviceIf served
  cases (s.slot b.slot).blockPending <;> cases s.waiting b.port <;> rfl

/-! ## The fold (R143, R144) -/

/-- A record that reads good takes the count, a withdrawn one nothing. -/
def folded (s : State) (b : Binding) : State :=
  { s with
    lines := if (s.line b.port).withdrawn = true then s.lines else s.lines.set b.port
      { s.line b.port with
        total := min ((s.line b.port).total + b.meterCount) 16777215, damaged := false, withdrawn := false } }

theorem retired_eq (s : State) (e : EntryNo) (b : Binding) : discharged (folded s b) e b = retired s e b := rfl

theorem fold_reads (h : Reads s b.port) : s.fold b = folded s b := by
  unfold State.fold folded
  dsimp only
  by_cases hw : (s.line b.port).withdrawn = true
  · rw [if_pos hw, if_pos hw]
  · have good : ¬ (s.line b.port).damaged = true := by simp [h.resolve_left hw]
    rw [if_neg hw, if_neg good, if_neg hw]
    rfl

theorem fold_damaged (hq : Quiet s) (hd : (s.line b.port).damaged = true) (hw : (s.line b.port).withdrawn = false) :
    s.fold b = quarantining (telling s [.integrity .line b.port.val b.handle]) b.port := by
  unfold State.fold
  dsimp only
  rw [if_neg (by simp [hw]), if_pos hd]
  exact lineActionsRetiring_quiet hq _ _

theorem settled_quarantined (q : Port) :
    settled { quarantined q with injector := .idle } = quarantined { q with injector := .idle } := by
  obtain ⟨hook, classifier, pulses, makeTimer, sup, parkPending, testLatch, injector, lineClosed⟩ := q
  cases sup <;> rfl

theorem retiredLost_eq (s : State) (e : EntryNo) (b : Binding) :
    discharged (quarantining s b.port) e b = retiredLost s e b := by
  have port : (quarantining s b.port).port b.port = quarantined (s.port b.port) := port_porting s b.port _
  have ports : (quarantining s b.port).ports.set b.port
      (settled { (quarantining s b.port).port b.port with injector := .idle }) =
      s.ports.set b.port (quarantined { s.port b.port with injector := .idle }) := by
    rw [port, settled_quarantined]
    exact Vector.set_set _ _
  unfold retiredLost
  rw [← ports]
  rfl

/-! ## What a retirement leaves -/

/-- The handle is out of the ringing lists, leaving this state and no more. -/
abbrev Quits (s : State) (k : Nat) (u : State) : Prop := s.leaveRinging State.budgetPass k = u ∧ u = onto s u

theorem quits_leftRinging {k : Nat} (h : Leavable s k) : Quits s k (leftRinging s k) :=
  ⟨leaveRinging_eq s k, leftRinging_onto h⟩

theorem quits_none {k : Nat} (h : NotRinging s k) : Quits s k s := ⟨leaveRinging_none _ h, rfl⟩

theorem quits_last {k : Nat} (h : LastToRing s k) : Quits s k (unringing s k) := by
  refine ⟨?_, rfl⟩
  by_cases hn : NotRinging s k
  · rw [unringing_none hn, leaveRinging_none _ hn]
  · rw [leaveRinging_some _ hn, lastToRing_over h]

theorem folded_line (s : State) (e : EntryNo) (b : Binding) :
    (discharged (folded s b) e b).line b.port =
      if (s.line b.port).withdrawn = true then s.line b.port
      else { s.line b.port with
        total := min ((s.line b.port).total + b.meterCount) 16777215, damaged := false, withdrawn := false } := by
  unfold discharged folded State.line
  dsimp only
  split
  · rfl
  · exact Vector.getElem_set_self _

theorem folded_ceasing : Ceasing (discharged (folded s b) e b) b.port ↔ Ceasing s b.port := by
  unfold Ceasing
  rw [folded_line]
  split
  · exact Iff.rfl
  · next used => simp [used]

theorem reads_congr (h : u.line p = s.line p) : Reads u p ↔ Reads s p := by
  unfold Reads
  rw [h]

theorem ceasing_congr (h : u.line p = s.line p) : Ceasing u p ↔ Ceasing s p := by
  unfold Ceasing
  rw [h]

theorem retire_normal (q : Quits s b.handle u) (hr : Retirable s b) (hc : ¬ Ceasing s b.port) (e : EntryNo) :
    s.retire e b = served s b (retired u e b) := by
  obtain ⟨left, same⟩ := q
  have line : u.line b.port = s.line b.port := by
    rw [same]
    rfl
  have ceasing : ¬ Ceasing (discharged (folded u b) e b) b.port := fun x => hc ((ceasing_congr line).mp (folded_ceasing.mp x))
  rw [retire_eq left (fold_reads ((reads_congr line).mpr hr.1)) (by rw [same]; rfl) hr.2, completeCease_none ceasing, retired_eq]

/-- A record that the fold finds damaged: no fold, and the report leaves (R144, R179). -/
theorem retire_lost (hq : Quiet s) (q : Quits s b.handle u) (hs : (s.slot b.slot).damaged = false)
    (hd : (s.line b.port).damaged = true) (hw : (s.line b.port).withdrawn = false) (e : EntryNo) :
    s.retire e b = served s b (retiredLost (telling u [.integrity .line b.port.val b.handle]) e b) := by
  obtain ⟨left, same⟩ := q
  have line : u.line b.port = s.line b.port := by
    rw [same]
    rfl
  have quiet : Quiet u := by
    rw [same]
    exact hq
  have slots : (quarantining (telling u [.integrity .line b.port.val b.handle]) b.port).slots = s.slots := by
    rw [telling_eq, same]
    rfl
  have withdrawn : ((quarantining (telling u [.integrity .line b.port.val b.handle]) b.port).line b.port).withdrawn = true :=
    congrArg LineRecord.withdrawn (Vector.getElem_set_self _)
  have ceasing : ¬ Ceasing (discharged (quarantining (telling u [.integrity .line b.port.val b.handle]) b.port) e b) b.port :=
    fun x => absurd (withdrawn.symm.trans x.2) (by decide)
  rw [retire_eq left (fold_damaged quiet (line ▸ hd) (line ▸ hw)) slots hs, completeCease_none ceasing, retiredLost_eq]

/-- A deferred cease completes with the folded total, and CEASED leaves (R15, R89 step 7). -/
theorem retire_ceased (hq : Quiet s) (q : Quits s b.handle u) (hr : Retirable s b) (hc : Ceasing s b.port) (e : EntryNo)
    {total : Nat} (ht : total = min ((s.line b.port).total + b.meterCount) 16777215) :
    s.retire e b =
      served s b (ceased (retired (telling u [.ceased b.port (s.line b.port).key total]) e b) b.port total) := by
  obtain ⟨left, same⟩ := q
  have line : u.line b.port = s.line b.port := by
    rw [same]
    rfl
  have quiet : u.out.holding = false := by
    rw [same]
    exact hq.2
  have ceasing : Ceasing (discharged (folded u b) e b) b.port := folded_ceasing.mpr ((ceasing_congr line).mpr hc)
  have folds : (discharged (folded u b) e b).line b.port =
      { s.line b.port with total := total, damaged := false, withdrawn := false } := by
    rw [folded_line, line, if_neg (by simp [hc.2]), ht]
  have sent : (ceased (retired u e b) b.port total).send (.ceased b.port (s.line b.port).key total) =
      ceased (retired (telling u [.ceased b.port (s.line b.port).key total]) e b) b.port total := by
    rw [telling_eq]
    exact (sends_quiet (s := ceased (retired u e b) b.port total) quiet [_]).trans (telling_eq _ _)
  rw [retire_eq left (fold_reads ((reads_congr line).mpr hr.1)) (by rw [same]; rfl) hr.2,
    completeCease_good ceasing (by rw [folds]), folds, retired_eq, sent]

/-! ## The events that retire a binding -/

theorem telling_answering (hl : s.link = .up) (ms more : List Message) :
    telling (answering s ms) more = answering s (ms ++ more) := by
  unfold telling
  rw [if_pos (by exact hl)]
  simp [answering]

section
variable (hl : Listening s) (hq : Quiet s) (n : Named s b.handle e b)
include hl hq n

theorem deny_retires (tag : Nat) (hp : b.phase = .seizing) :
    exec (.deny tag (.handle b.handle)) s = .next ((answering s []).retire e b) := by
  rw [Handled.deny.named hl tag n]
  simp only [hp, taken_release hq]
  exact congrArg Host.Outcome.next (release_quiet (quiet_retire (s := answering s []) e b hq))

theorem cleared_retires (tag : Nat) (hp : b.phase = .clearing) :
    exec (.cleared tag (.handle b.handle)) s = .next ((answering s []).retire e b) := by
  rw [Handled.cleared.named hl tag n]
  simp only [hp, taken_release hq]
  exact congrArg Host.Outcome.next (release_quiet (quiet_retire (s := answering s []) e b hq))

theorem clear_retires (tag c : Nat) (hp : b.phase = .clearing) :
    exec (.clear tag (.handle b.handle) c) s = .next ((answering s []).retire e b) := by
  rw [(Handled.clear c).named hl tag n]
  simp only [hp, taken_release hq]
  exact congrArg Host.Outcome.next (release_quiet (quiet_retire (s := answering s []) e b hq))

theorem clear_answers (tag c : Nat) (hp : b.phase ≠ .clearing) :
    exec (.clear tag (.handle b.handle) c) s =
      .next ((answering s [.cleared tag b.handle b.meterCount]).retire e b) := by
  have answered := reply_taken_answering hl hq (.cleared tag b.handle b.meterCount)
  have quiet := quiet_retire (s := answering s [.cleared tag b.handle b.meterCount]) e b hq
  rw [(Handled.clear c).named hl tag n]
  split
  · exact absurd ‹_› hp
  · rw [answered, release_quiet quiet]

end

/-- The expiry of T_release is counted (R86). -/
def releaseTimedOut (s : State) : State :=
  { s with counters := { s.counters with releaseTimeouts := min (s.counters.releaseTimeouts + 1) 65535 } }

theorem expiry_retires (n : Named s b.handle e b) (hp : b.phase = .clearing) (ht : b.tRelease.isSome = true) :
    exec (.tReleaseExpiry b.handle) s =
      .next ((releaseTimedOut s).retire e b) := by
  rw [exec_tReleaseExpiry, onExpiry_named n (by simp [Binding.releaseRuns, hp, ht])]
  rfl

theorem telling_leftRinging {k : Nat} (h : Leavable s k) (ms : List Message) :
    telling (leftRinging s k) ms = leftRinging (telling s ms) k := by
  have out : telling (leftRinging s k) ms = { leftRinging s k with out := said s ms } := by
    rw [telling_eq, leftRinging_onto h]
    rfl
  rw [out, telling_eq s]
  exact (leftRinging_framed (f := fun x => { x with out := said s ms }) ⟨⟨rfl, rfl, rfl⟩, fun _ => rfl⟩ h).symm

/-- Settles O26: each event comes to a retirement from a state that holds nothing back. -/
theorem bindingsRetire : Obligations.BindingsRetire := by
  refine ⟨fun s e b hq n hr hc hn => ⟨fun tag hl hp => ?_, fun tag hl hp => ⟨?_, fun c => ?_⟩, fun tag c hl hp => ?_,
      fun hp ht => ?_⟩,
    fun s e b hq n hs hd hw report hm => ⟨fun hn => ⟨fun tag hl hp => ?_, fun tag hl hp => ⟨?_, fun c => ?_⟩,
      fun hp ht => ?_⟩, fun tag c hl hp leaves => ?_⟩,
    fun s tag c e b hl hq n hp hr hc t ht => ⟨fun last => ?_, fun rings reads => ?_⟩⟩
  · rw [deny_retires hl hq n tag hp, retire_normal (s := answering s []) (quits_none hn) hr hc]
    rfl
  · rw [cleared_retires hl hq n tag hp, retire_normal (s := answering s []) (quits_none hn) hr hc]
    rfl
  · rw [clear_retires hl hq n tag c hp, retire_normal (s := answering s []) (quits_none hn) hr hc]
    rfl
  · rw [clear_answers hl hq n tag c hp, retire_normal (s := answering s _) (quits_none hn) hr hc]
    rfl
  · rw [expiry_retires n hp ht, retire_normal (s := releaseTimedOut s) (quits_none hn) hr hc]
    rfl
  · rw [hm, deny_retires hl hq n tag hp, retire_lost (s := answering s []) hq (quits_none hn) hs hd hw, telling_answering hl.1]
    rfl
  · rw [hm, cleared_retires hl hq n tag hp, retire_lost (s := answering s []) hq (quits_none hn) hs hd hw,
      telling_answering hl.1]
    rfl
  · rw [hm, clear_retires hl hq n tag c hp, retire_lost (s := answering s []) hq (quits_none hn) hs hd hw,
      telling_answering hl.1]
    rfl
  · rw [hm, expiry_retires n hp ht, retire_lost (s := releaseTimedOut s) hq (quits_none hn) hs hd hw, telling_eq,
      telling_eq]
    rfl
  · have leavable : Leavable (answering s [.cleared tag b.handle b.meterCount]) b.handle := leavable_of_read leaves
    rw [hm, clear_answers hl hq n tag c hp, retire_lost (s := answering s _) hq (quits_leftRinging leavable) hs hd hw,
      telling_leftRinging leavable, telling_answering hl.1]
    rfl
  · rw [ht, clear_answers hl hq n tag c (by rcases hp with hp | hp <;> simp [hp]),
      retire_normal (s := answering s _) (quits_last last) hr hc]
    rfl
  · have leavable : Leavable (answering s [.cleared tag b.handle b.meterCount]) b.handle := leavable_of_read (.inr reads)
    rw [ht, clear_answers hl hq n tag c (by rcases hp with hp | hp <;> simp [hp]),
      retire_normal (s := answering s _) (quits_leftRinging leavable) hr hc, leftRinging_some (s := answering s _) rings]
    rfl

end Sys2Proof.Machine
end

section
/-!
PROOFS. GiveUp.lean: what a link loss and a warm reset leave of one port, one slot and the counts when every binding is
given up (R64, R65, R91, R92).
-/
namespace Sys2Proof.Machine

open Sys2Proof.Safety

variable {s t u v : State} {p r : PortNo} {e : EntryNo} {b : Binding} {settle : Bool}

/-! ## A port that is not touched -/

/-- Nothing of this port or its line changes. -/
structure Spares (s t : State) (p : PortNo) : Prop where
  line : t.line p = s.line p
  key : t.indexKey p = s.indexKey p
  port : t.port p = s.port p
  waiting : t.waiting p = s.waiting p

theorem Spares.refl (s : State) (p : PortNo) : Spares s s p := ⟨rfl, rfl, rfl, rfl⟩

theorem Spares.trans (h : Spares s t p) (k : Spares t u p) : Spares s u p :=
  ⟨k.line.trans h.line, k.key.trans h.key, k.port.trans h.port, k.waiting.trans h.waiting⟩

theorem spares_of_tables (h : t.tables = u.tables) (k : Spares s u p) : Spares s t p :=
  k.trans ⟨State.line_congr (congrArg Tables.lines h) p, State.indexKey_congr (congrArg Tables.keyIndex h) p,
    State.port_congr (congrArg Tables.ports h) p, waiting_congr (congrArg Tables.owq h) p⟩

theorem waiting_filter (h : p ≠ r) (ws : List Waiting) :
    ((ws.filter fun w => !decide (w.port = r)).any fun w => decide (w.port = p)) = ws.any fun w => decide (w.port = p) := by
  rw [List.any_filter]
  congr 1
  funext w
  by_cases hw : w.port = p <;> simp [hw, h]

theorem spares_lineLost (h : p ≠ r) (s : State) : Spares s ((s.withdraw r).quarantine r) p := by
  rw [State.quarantine_eq]
  exact ⟨line_setLine_ne h _, (State.indexKey_setIndex s r p none).trans (if_neg h), port_setPort_ne h _,
    waiting_filter h s.owq⟩

theorem lineActionsRetiring_tables (s : State) (r : PortNo) (k : Nat) :
    (s.lineActionsRetiring r k).tables = ((s.withdraw r).quarantine r).tables :=
  reporting_ends (s := s.countFault.withdraw r) (P := fun t => t.tables = ((s.withdraw r).quarantine r).tables) _
    (fun _ hu => tables_quarantine (s := s.withdraw r) hu.tables r) fun _ h => h

theorem spares_fold (h : p ≠ b.port) (s : State) : Spares s (s.fold b) p := by
  unfold State.fold
  dsimp only
  split
  · exact .refl s p
  split
  · exact spares_of_tables (lineActionsRetiring_tables s b.port b.handle) (spares_lineLost h s)
  · exact ⟨line_setLine_ne h _, rfl, rfl, rfl⟩

theorem spares_ceased (h : p ≠ r) (s : State) (total : Nat) : Spares s (ceased s r total) p :=
  ⟨line_setLine_ne h _, (State.indexKey_setIndex s r p none).trans (if_neg h), port_setPort_ne h _,
    waiting_filter h s.owq⟩

theorem spares_completeCease (h : p ≠ r) (s : State) (k : Nat) : Spares s (s.completeCease r k) p := by
  by_cases hc : Ceasing s r
  · cases hd : (s.line r).damaged
    · rw [completeCease_good hc hd]
      exact spares_of_tables (outward_send _ _).tables (spares_ceased h s _)
    · rw [completeCease_damaged hc hd]
      exact spares_of_tables (lineActionsRetiring_tables s r k) (spares_lineLost h s)
  · rw [completeCease_none hc]
    exact .refl s p

theorem spares_setPort (h : p ≠ r) (s : State) (q : Port) : Spares s (s.setPort r q) p :=
  ⟨rfl, rfl, port_setPort_ne h q, rfl⟩

theorem spares_retireQuiet (h : ∀ b ∈ (s.entry e).binding, p ≠ b.port) : Spares s (s.retireQuiet settle e) p := by
  unfold State.retireQuiet
  split
  · exact .refl s p
  next b hb =>
  have apart := h b hb
  have ended : Spares s (((s.fold b).stopInjector b.port).writeEntry e none) p :=
    ((spares_fold apart s).trans (spares_setPort apart _ _)).trans ⟨rfl, rfl, rfl, rfl⟩
  generalize ((s.fold b).stopInjector b.port).writeEntry e none = t at ended ⊢
  refine ended.trans (.trans ?_ (spares_completeCease apart _ _))
  split
  · rw [State.settle_eq]
    exact spares_setPort apart t _
  · exact .refl t p

/-! ## The slots while bindings retire -/

/-- The slots, the pool, the next handle and the ringing lists stay. -/
structure SameStock (s t : State) : Prop where
  slots : t.slots = s.slots
  pool : t.pool = s.pool
  nextHandle : t.nextHandle = s.nextHandle
  ringQueue : t.ringQueue = s.ringQueue
  ringList : t.ringList = s.ringList
  committed : t.committed = s.committed

theorem SameStock.refl (s : State) : SameStock s s := ⟨rfl, rfl, rfl, rfl, rfl, rfl⟩

theorem SameStock.trans (h : SameStock s t) (k : SameStock t u) : SameStock s u :=
  ⟨k.slots.trans h.slots, k.pool.trans h.pool, k.nextHandle.trans h.nextHandle, k.ringQueue.trans h.ringQueue,
    k.ringList.trans h.ringList, k.committed.trans h.committed⟩

theorem sameStock_of_tables (h : t.tables = u.tables) (k : SameStock s u) : SameStock s t :=
  k.trans ⟨congrArg Tables.slots h, congrArg Tables.pool h, congrArg Tables.nextHandle h, congrArg Tables.ringQueue h,
    congrArg Tables.ringList h, congrArg Tables.committed h⟩

theorem sameStock_lineActionsRetiring (s : State) (r : PortNo) (k : Nat) : SameStock s (s.lineActionsRetiring r k) :=
  sameStock_of_tables (lineActionsRetiring_tables s r k) (by rw [State.quarantine_eq]; exact ⟨rfl, rfl, rfl, rfl, rfl, rfl⟩)

theorem sameStock_retireQuiet (s : State) (settle : Bool) (e : EntryNo) : SameStock s (s.retireQuiet settle e) := by
  have ceases (t : State) (r : PortNo) (k : Nat) : SameStock t (t.completeCease r k) := by
    by_cases hc : Ceasing t r
    · cases hd : (t.line r).damaged
      · rw [completeCease_good hc hd]
        exact sameStock_of_tables (outward_send _ _).tables ⟨rfl, rfl, rfl, rfl, rfl, rfl⟩
      · rw [completeCease_damaged hc hd]
        exact sameStock_lineActionsRetiring t r k
    · rw [completeCease_none hc]
      exact ⟨rfl, rfl, rfl, rfl, rfl, rfl⟩
  unfold State.retireQuiet
  split
  · exact ⟨rfl, rfl, rfl, rfl, rfl, rfl⟩
  next b _ =>
  have folds : SameStock s (s.fold b) := by
    unfold State.fold
    dsimp only
    split
    · exact ⟨rfl, rfl, rfl, rfl, rfl, rfl⟩
    split
    · exact sameStock_lineActionsRetiring s _ _
    · exact ⟨rfl, rfl, rfl, rfl, rfl, rfl⟩
  have ended : SameStock s (((s.fold b).stopInjector b.port).writeEntry e none) := folds.trans ⟨rfl, rfl, rfl, rfl, rfl, rfl⟩
  generalize ((s.fold b).stopInjector b.port).writeEntry e none = t at ended ⊢
  refine ended.trans (.trans ?_ (ceases _ _ _))
  split
  · rw [State.settle_eq]
    exact ⟨rfl, rfl, rfl, rfl, rfl, rfl⟩
  · exact ⟨rfl, rfl, rfl, rfl, rfl, rfl⟩

/-! ## The port of a retired binding -/

/-- A binding has retired without its slot: the count folded, the injector idle, the entry empty, and at link loss the port
settled by its hook (R65, R91, R92). -/
def quitted (settle : Bool) (s : State) (e : EntryNo) (b : Binding) : State :=
  porting (holding (folded s b) e none) b.port
    (if settle then settled { s.port b.port with injector := .idle } else { s.port b.port with injector := .idle })

theorem retireQuiet_eq (hb : (s.entry e).binding = some b) (hr : Reads s b.port) :
    s.retireQuiet settle e = (quitted settle s e b).completeCease b.port b.handle := by
  have port : (((folded s b).stopInjector b.port).writeEntry e none).port b.port =
      { s.port b.port with injector := .idle } := port_porting (folded s b) b.port _
  unfold State.retireQuiet
  rw [hb]
  dsimp only
  rw [fold_reads hr]
  cases settle with
  | false => rfl
  | true =>
    rw [if_pos rfl, State.settle_eq, port]
    exact congrArg (State.completeCease · b.port b.handle) (porting_porting (holding (folded s b) e none) b.port _ _)

theorem quitted_line (settle : Bool) (s : State) (e : EntryNo) (b : Binding) :
    (quitted settle s e b).line b.port =
      if (s.line b.port).withdrawn = true then s.line b.port
      else { s.line b.port with
        total := min ((s.line b.port).total + b.meterCount) 16777215, damaged := false, withdrawn := false } :=
  folded_line s e b

theorem quitted_port (settle : Bool) (s : State) (e : EntryNo) (b : Binding) :
    (quitted settle s e b).port b.port =
      if settle then settled { s.port b.port with injector := .idle } else { s.port b.port with injector := .idle } :=
  port_porting (holding (folded s b) e none) b.port _

theorem quitted_ceasing : Ceasing (quitted settle s e b) b.port ↔ Ceasing s b.port :=
  folded_ceasing (e := e)

theorem retireQuiet_keeps (hb : (s.entry e).binding = some b) (hr : Reads s b.port) (hc : ¬ Ceasing s b.port) :
    s.retireQuiet settle e = quitted settle s e b := by
  rw [retireQuiet_eq hb hr, completeCease_none (mt quitted_ceasing.mp hc)]

theorem retireQuiet_ceases (hb : (s.entry e).binding = some b) (hr : Reads s b.port) (hc : Ceasing s b.port) :
    Outward (ceased (quitted settle s e b) b.port (min ((s.line b.port).total + b.meterCount) 16777215))
      (s.retireQuiet settle e) := by
  have line := quitted_line settle s e b
  rw [if_neg (by simp [hc.2])] at line
  rw [retireQuiet_eq hb hr, completeCease_good (quitted_ceasing.mpr hc) (by rw [line]), line]
  exact outward_send _ _

/-! ## All bindings, one after the other -/

def State.retireRun (s : State) (settle : Bool) (es : List EntryNo) : State :=
  es.foldl (fun v e => v.retireQuiet settle e) s

theorem retireQuiet_binding (s : State) (settle : Bool) (e f : EntryNo) :
    ∀ b ∈ ((s.retireQuiet settle e).entry f).binding, b ∈ (s.entry f).binding := by
  intro b hb
  by_cases he : (s.entry e).binding = none
  · rwa [State.entry_congr ((retireQuiet_entries settle e).trans (if_pos he))] at hb
  · rw [State.entry_congr (t := s.retireQuiet settle e) (s := s.writeEntry e none)
      ((retireQuiet_entries settle e).trans (if_neg he)), entry_writeEntry_at] at hb
    split at hb
    · cases hb
    · exact hb

theorem retireQuiet_entry_ne {f : EntryNo} (h : f ≠ e) (s : State) (settle : Bool) :
    (s.retireQuiet settle e).entry f = s.entry f := by
  by_cases he : (s.entry e).binding = none
  · exact State.entry_congr ((retireQuiet_entries settle e).trans (if_pos he)) f
  · rw [State.entry_congr (t := s.retireQuiet settle e) (s := s.writeEntry e none)
      ((retireQuiet_entries settle e).trans (if_neg he)), entry_writeEntry_at, if_neg h]

theorem retireRun_entry {es : List EntryNo} (h : e ∉ es) (s : State) : (s.retireRun settle es).entry e = s.entry e := by
  induction es generalizing s with
  | nil => rfl
  | cons f es ih =>
    exact (ih (fun x => h (by simp [x])) _).trans (retireQuiet_entry_ne (fun x => h (by simp [x])) s settle)

theorem spares_retireRun {es : List EntryNo} (h : ∀ e ∈ es, ∀ b ∈ (s.entry e).binding, p ≠ b.port) :
    Spares s (s.retireRun settle es) p := by
  induction es generalizing s with
  | nil => exact .refl s p
  | cons e es ih =>
    refine (spares_retireQuiet (h e (by simp))).trans (ih fun f hf b hb => ?_)
    exact h f (by simp [hf]) b (retireQuiet_binding s settle e f b hb)

/-- The port's one binding retires from a state that holds its line and port as they were, and no other touches them. -/
theorem retireRun_only (h : OnlyCall s p e b) (settle : Bool) :
    ∃ v, Spares s v p ∧ (v.entry e).binding = some b ∧
      Spares (v.retireQuiet settle e) (s.retireRun settle allEntries) p := by
  obtain ⟨here, port, only⟩ := h
  obtain ⟨before, after, all⟩ := List.append_of_mem (List.mem_finRange e)
  have once : (before ++ e :: after).Nodup := all ▸ List.nodup_finRange 15
  have apart : e ∉ before ∧ e ∉ after := by
    have out := (List.nodup_cons.mp (List.perm_middle.nodup_iff.mp once)).1
    simpa using out
  have elsewhere (f : EntryNo) (hf : f ≠ e) : ∀ c ∈ (s.entry f).binding, p ≠ c.port := fun c hc hp =>
    hf (only f c hc hp.symm)
  refine ⟨s.retireRun settle before, spares_retireRun fun f hf => elsewhere f fun x => apart.1 (x ▸ hf),
    (congrArg Entry.binding (retireRun_entry apart.1 s)).trans here, ?_⟩
  have rest : s.retireRun settle allEntries = ((s.retireRun settle before).retireQuiet settle e).retireRun settle after := by
    unfold State.retireRun
    rw [show allEntries = before ++ e :: after from all, List.foldl_append, List.foldl_cons]
  rw [rest]
  refine spares_retireRun fun f hf c hc => ?_
  have other : f ≠ e := fun x => apart.2 (x ▸ hf)
  have old : c ∈ (s.entry f).binding := by
    have earlier := retireQuiet_binding (s.retireRun settle before) settle e f c hc
    have kept (es : List EntryNo) (t : State) : ∀ c ∈ ((t.retireRun settle es).entry f).binding, c ∈ (t.entry f).binding := by
      induction es generalizing t with
      | nil => exact fun _ h => h
      | cons g es ih => exact fun c hc => retireQuiet_binding t settle g f c (ih _ c hc)
    exact kept before s c earlier
  exact elsewhere f other c old

theorem uncalled_elsewhere (h : s.call p = none) (e : EntryNo) : ∀ b ∈ (s.entry e).binding, p ≠ b.port := by
  intro b hb hp
  have miss := List.findSome?_eq_none_iff.mp h e (List.mem_finRange e)
  rw [show (s.entry e).binding = some b from hb] at miss
  simp [hp] at miss

theorem spares_uncalled (h : s.call p = none) (settle : Bool) : Spares s (s.retireRun settle allEntries) p :=
  spares_retireRun fun e _ => uncalled_elsewhere h e

/-- A record with its total folded. -/
def totalled (r : LineRecord) (n : Nat) : LineRecord :=
  if r.withdrawn = true then r else { r with total := min (r.total + n) 16777215 }

theorem totalled_reads {r : LineRecord} (h : r.withdrawn = true ∨ r.damaged = false) (n : Nat) :
    (if r.withdrawn = true then r
      else { r with total := min (r.total + n) 16777215, damaged := false, withdrawn := false }) = totalled r n := by
  unfold totalled
  obtain ⟨status, key, cls, load, cadence, reverse, meterPulse, keep, total, damaged, withdrawn⟩ := r
  cases withdrawn with
  | true => rfl
  | false =>
    obtain rfl : damaged = false := by simpa using h
    rfl

section
variable (h : OnlyCall s p e b) (hr : Reads s p)
include h hr

/-- The one binding of a port whose record reads good and is not being ceased retires with the others. -/
theorem retireRun_keeps (hc : ¬ Ceasing s p) (settle : Bool) :
    (s.retireRun settle allEntries).line p = totalled (s.line p) b.meterCount ∧
      (s.retireRun settle allEntries).indexKey p = s.indexKey p ∧
      (s.retireRun settle allEntries).port p =
        (if settle then settled { s.port p with injector := .idle } else { s.port p with injector := .idle }) ∧
      (s.retireRun settle allEntries).waiting p = s.waiting p := by
  obtain ⟨v, before, here, after⟩ := retireRun_only h settle
  obtain rfl := h.2.1
  have ended := retireQuiet_keeps (settle := settle) here ((reads_congr before.line).mpr hr)
    (mt (ceasing_congr before.line).mp hc)
  rw [ended] at after
  refine ⟨?_, after.key.trans before.key, ?_, after.waiting.trans before.waiting⟩
  · rw [after.line, quitted_line, before.line, totalled_reads hr]
  · rw [after.port, quitted_port, before.port]

/-- A deferred cease completes among the others (R91, R92). -/
theorem retireRun_ceases (hc : Ceasing s p) (settle : Bool) :
    (s.retireRun settle allEntries).line p =
        { LineRecord.initial with total := min ((s.line p).total + b.meterCount) 16777215 } ∧
      (s.retireRun settle allEntries).indexKey p = none ∧
      (s.retireRun settle allEntries).port p = vacated
        (if settle then settled { s.port p with injector := .idle } else { s.port p with injector := .idle }) ∧
      (s.retireRun settle allEntries).waiting p = false := by
  obtain ⟨v, before, here, after⟩ := retireRun_only h settle
  obtain rfl := h.2.1
  have tables := (retireQuiet_ceases (settle := settle) here ((reads_congr before.line).mpr hr)
    ((ceasing_congr before.line).mpr hc)).tables
  generalize v.retireQuiet settle e = w at tables after
  refine ⟨?_, ?_, ?_, ?_⟩
  · rw [after.line, State.line_congr (congrArg Tables.lines tables), ← before.line]
    exact Vector.getElem_set_self _
  · rw [after.key, State.indexKey_congr (congrArg Tables.keyIndex tables)]
    exact Vector.getElem_set_self _
  · rw [after.port, State.port_congr (congrArg Tables.ports tables), ← before.port]
    refine (port_porting (quitted settle v e b) b.port _).trans (congrArg vacated ?_)
    exact quitted_port settle v e b
  · rw [after.waiting, waiting_congr (congrArg Tables.owq tables)]
    simp [State.waiting, ceased]

end

/-! ## Any number of bindings of one port -/

/-- The line of a port as it was but for its total, the key and the queue as they were, and at a warm reset the port but
for its injector. -/
structure Rated (settle : Bool) (s t : State) (p : PortNo) : Prop where
  line : ∃ n, t.line p = { s.line p with total := n }
  key : t.indexKey p = s.indexKey p
  waiting : t.waiting p = s.waiting p
  port : settle = false → ∃ i, t.port p = { s.port p with injector := i }

theorem Spares.rated (h : Spares s t p) : Rated settle s t p :=
  ⟨⟨_, h.line⟩, h.key, h.waiting, fun _ => ⟨_, h.port⟩⟩

theorem Rated.trans (h : Rated settle s t p) (k : Rated settle t u p) : Rated settle s u p := by
  obtain ⟨⟨n, line⟩, key, waiting, port⟩ := h
  obtain ⟨⟨n', line'⟩, key', waiting', port'⟩ := k
  refine ⟨⟨n', by rw [line', line]⟩, key'.trans key, waiting'.trans waiting, fun x => ?_⟩
  obtain ⟨i, hi⟩ := port x
  obtain ⟨i', hi'⟩ := port' x
  exact ⟨i', by rw [hi', hi]⟩

theorem Rated.reads (h : Rated settle s t p) (hr : Reads s p) : Reads t p := by
  obtain ⟨n, line⟩ := h.line
  unfold Reads
  rw [line]
  exact hr

theorem Rated.ceasing (h : Rated settle s t p) (hc : ¬ Ceasing s p) : ¬ Ceasing t p := by
  obtain ⟨n, line⟩ := h.line
  unfold Ceasing
  rw [line]
  exact hc

theorem totalled_rated (r : LineRecord) (n : Nat) : ∃ k, totalled r n = { r with total := k } := by
  unfold totalled
  split
  · exact ⟨r.total, rfl⟩
  · exact ⟨_, rfl⟩

theorem rated_quitted (hr : Reads s b.port) : Rated settle s (quitted settle s e b) b.port := by
  refine ⟨?_, rfl, rfl, fun x => ⟨.idle, ?_⟩⟩
  · rw [quitted_line, totalled_reads hr]
    exact totalled_rated _ _
  · rw [quitted_port, x]
    rfl

theorem rated_retireQuiet (hr : Reads s p) (hc : ¬ Ceasing s p) (settle : Bool) (e : EntryNo) :
    Rated settle s (s.retireQuiet settle e) p := by
  by_cases apart : ∃ b ∈ (s.entry e).binding, p = b.port
  case neg => exact (spares_retireQuiet fun b hb same => apart ⟨b, hb, same⟩).rated
  case pos =>
    obtain ⟨b, hb, rfl⟩ := apart
    rw [retireQuiet_keeps hb hr hc]
    exact rated_quitted hr

theorem rated_retireRun (hr : Reads s p) (hc : ¬ Ceasing s p) (settle : Bool) (es : List EntryNo) :
    Rated settle s (s.retireRun settle es) p := by
  induction es generalizing s with
  | nil => exact (Spares.refl s p).rated
  | cons e es ih =>
    have first := rated_retireQuiet hr hc settle e
    exact first.trans (ih (first.reads hr) (first.ceasing hc))

/-! ## No damage, no count -/

theorem retireQuiet_counters (hr : ∀ p, Reads s p) (settle : Bool) (e : EntryNo) :
    (s.retireQuiet settle e).counters = s.counters ∧ ∀ p, Reads (s.retireQuiet settle e) p := by
  cases hb : (s.entry e).binding with
  | none =>
    have same : s.retireQuiet settle e = s := by
      unfold State.retireQuiet
      rw [hb]
    rw [same]
    exact ⟨rfl, hr⟩
  | some b =>
    by_cases hc : Ceasing s b.port
    · have said := retireQuiet_ceases (settle := settle) hb (hr b.port) hc
      refine ⟨said.counters, fun p => ?_⟩
      by_cases hp : p = b.port
      · rw [hp]
        refine .inr ?_
        rw [State.line_congr (congrArg Tables.lines said.tables)]
        exact congrArg LineRecord.damaged (Vector.getElem_set_self _)
      · have apart : ∀ c ∈ (s.entry e).binding, p ≠ c.port := by
          rintro c hc'
          rw [hb] at hc'
          cases hc'
          exact hp
        exact (reads_congr (spares_retireQuiet apart).line).mpr (hr p)
    · rw [retireQuiet_keeps hb (hr b.port) hc]
      refine ⟨rfl, fun p => ?_⟩
      by_cases hp : p = b.port
      · rw [hp]
        exact (rated_quitted (settle := settle) (hr b.port)).reads (hr b.port)
      · have line : (quitted settle s e b).line p = s.line p := by
          unfold quitted folded
          show (if (s.line b.port).withdrawn = true then s.lines else s.lines.set b.port _)[p] = s.line p
          split
          · rfl
          · exact line_setLine_ne hp _
        exact (reads_congr line).mpr (hr p)

theorem retireRun_counters (hr : ∀ p, Reads s p) (settle : Bool) (es : List EntryNo) :
    (s.retireRun settle es).counters = s.counters ∧ ∀ p, Reads (s.retireRun settle es) p := by
  induction es generalizing s with
  | nil => exact ⟨rfl, hr⟩
  | cons e es ih =>
    obtain ⟨counters, reads⟩ := retireQuiet_counters hr settle e
    obtain ⟨counters', reads'⟩ := ih reads
    exact ⟨counters'.trans counters, reads'⟩

/-! ## The slots given up (R64) -/

theorem returnQuiet_frame (s : State) (n : SlotNo) :
    ∃ ss k i, s.returnQuiet n = { s with slots := ss, pool := k, counters := { s.counters with integrityFaults := i } } := by
  unfold State.returnQuiet State.returnGoodSlot
  split
  · split
    · exact ⟨_, _, _, rfl⟩
    · split <;> exact ⟨_, _, _, rfl⟩
  · exact ⟨_, _, _, rfl⟩

theorem returnRun_frame (s : State) (ns : List SlotNo) :
    ∃ ss k i, ns.foldl State.returnQuiet s =
      { s with slots := ss, pool := k, counters := { s.counters with integrityFaults := i } } := by
  induction ns generalizing s with
  | nil => exact ⟨_, _, _, rfl⟩
  | cons n ns ih =>
    obtain ⟨ss, k, i, h⟩ := returnQuiet_frame s n
    obtain ⟨ss', k', i', h'⟩ := ih (s.returnQuiet n)
    exact ⟨ss', k', i', by rw [List.foldl_cons, h', h]⟩

theorem returnQuiet_slot (s : State) (n m : SlotNo) :
    (s.returnQuiet n).slot m = if m = n then givenUp (s.slot n) else s.slot m := by
  unfold State.returnQuiet givenUp
  by_cases hb : (s.slot n).state = .bound
  · rw [if_pos hb, if_pos hb]
    by_cases hd : (s.slot n).damaged = true
    · rw [if_pos hd, if_pos hd]
      exact State.slot_setSlot _ n m _
    · rw [if_neg hd, if_neg hd]
      unfold State.returnGoodSlot
      split
      · exact State.slot_setSlot s n m _
      · exact State.slot_setSlot s n m _
  · rw [if_neg hb, if_neg hb]
    split
    · next h => rw [h]
    · rfl

theorem returnRun_slot (s : State) (n : SlotNo) : (allSlots.foldl State.returnQuiet s).slot n = givenUp (s.slot n) := by
  have here := foldl_at (f := State.returnQuiet) (State.slot · n) n (g := givenUp)
    (fun t => (returnQuiet_slot t n n).trans (if_pos rfl)) (fun t m h => (returnQuiet_slot t m n).trans (if_neg (Ne.symm h)))
    (List.nodup_finRange 15) s
  exact here.trans (if_pos (List.mem_finRange n))

theorem returnRun_counters (h : ∀ n, (s.slot n).state = .bound → (s.slot n).damaged = false) (ns : List SlotNo) :
    (ns.foldl State.returnQuiet s).counters = s.counters := by
  induction ns generalizing s with
  | nil => rfl
  | cons n ns ih =>
    have counters : (s.returnQuiet n).counters = s.counters := by
      unfold State.returnQuiet
      split
      · next hb =>
        rw [if_neg (by simp [h n hb])]
        unfold State.returnGoodSlot
        split <;> rfl
      · rfl
    refine (ih fun m hm => ?_).trans counters
    rw [returnQuiet_slot] at hm ⊢
    split at hm
    · next hmn =>
      rw [if_pos hmn]
      unfold givenUp at hm ⊢
      split <;> simp_all
    · next hmn =>
      rw [if_neg hmn]
      exact h m hm

/-- A slot that joins the pool when it is given up. -/
def comesFree (r : Slot) : Bool := decide (r.state = .bound) && !r.damaged && !r.blockPending

theorem returnQuiet_pool {n : SlotNo} (h : (s.slot n).state = .bound → n ∉ s.pool) :
    (s.returnQuiet n).pool = s.pool ++ if comesFree (s.slot n) then [n] else [] := by
  unfold State.returnQuiet comesFree
  by_cases hb : (s.slot n).state = .bound
  · rw [if_pos hb]
    by_cases hd : (s.slot n).damaged = true
    · have absent : s.pool.filter (fun m => !decide (m = n)) = s.pool :=
        List.filter_eq_self.mpr fun m hm => by
          have : m ≠ n := fun x => h hb (x ▸ hm)
          simpa using this
      rw [if_pos hd, if_neg (by simp [hd]), List.append_nil]
      exact absent
    · rw [if_neg hd]
      unfold State.returnGoodSlot
      by_cases hm : (s.slot n).blockPending = true
      · rw [if_pos hm, if_neg (by simp [hm]), List.append_nil]
        rfl
      · rw [if_neg hm, if_pos (by simp [hb, hd, hm])]
        rfl
  · rw [if_neg hb, if_neg (by simp [hb]), List.append_nil]

theorem returnRun_pool {ns : List SlotNo} (once : ns.Nodup) (h : ∀ n ∈ ns, (s.slot n).state = .bound → n ∉ s.pool) :
    (ns.foldl State.returnQuiet s).pool = s.pool ++ ns.filter fun n => comesFree (s.slot n) := by
  induction ns generalizing s with
  | nil => simp
  | cons n ns ih =>
    obtain ⟨apart, once⟩ := List.nodup_cons.mp once
    have other (m : SlotNo) (hm : m ∈ ns) : (s.returnQuiet n).slot m = s.slot m :=
      (returnQuiet_slot s n m).trans (if_neg fun x : m = n => apart (x ▸ hm))
    have pool := returnQuiet_pool (h n (by simp))
    have rest : ns.filter (fun m => comesFree ((s.returnQuiet n).slot m)) = ns.filter fun m => comesFree (s.slot m) :=
      List.filter_congr fun m hm => by rw [other m hm]
    rw [List.foldl_cons, ih once, pool, rest, List.append_assoc, List.filter_cons]
    · split <;> rfl
    · intro m hm hb
      rw [pool, List.mem_append]
      rw [other m hm] at hb
      rintro (old | new)
      · exact h m (by simp [hm]) hb old
      · split at new
        · rw [List.mem_singleton.mp new] at hm
          exact apart hm
        · cases new

/-! ## Every binding given up -/

theorem retireAll_eq (s : State) (settle : Bool) :
    s.retireAll settle = allSlots.foldl State.returnQuiet (s.unring.retireRun settle allEntries) := rfl

/-- Only the bindings' own steps touch the ports. -/
theorem retireAll_spares (s : State) (settle : Bool) (p : PortNo) :
    Spares (s.unring.retireRun settle allEntries) (s.retireAll settle) p := by
  rw [retireAll_eq]
  generalize s.unring.retireRun settle allEntries = u
  obtain ⟨ss, k, i, h⟩ := returnRun_frame u allSlots
  rw [h]
  exact ⟨rfl, rfl, rfl, rfl⟩

theorem spares_unring (s : State) (p : PortNo) : Spares s s.unring p := ⟨rfl, rfl, rfl, rfl⟩

theorem retireRun_stock (s : State) (settle : Bool) (es : List EntryNo) : SameStock s (s.retireRun settle es) := by
  induction es generalizing s with
  | nil => exact .refl s
  | cons e es ih => exact (sameStock_retireQuiet s settle e).trans (ih _)

theorem retireRun_slot (s : State) (settle : Bool) (n : SlotNo) :
    (s.unring.retireRun settle allEntries).slot n = s.slot n := by
  have slots := (retireRun_stock s.unring settle allEntries).slots
  generalize s.unring.retireRun settle allEntries = u at slots ⊢
  exact congrArg (fun v : Vector Slot 15 => v[n]) slots

theorem retireAll_slots (s : State) (settle : Bool) :
    (∀ n, (s.retireAll settle).slot n = givenUp (s.slot n)) ∧ (s.retireAll settle).nextHandle = s.nextHandle ∧
      ((∀ n ∈ s.pool, (s.slot n).state = .free) → (s.retireAll settle).pool = s.pool ++ comingFree s) ∧
      (s.retireAll settle).ringQueue = [] ∧ (s.retireAll settle).ringList = [] ∧ (s.retireAll settle).committed = 0 := by
  have stock := retireRun_stock s.unring settle allEntries
  have slot := retireRun_slot s settle
  rw [retireAll_eq]
  generalize s.unring.retireRun settle allEntries = u at stock slot ⊢
  obtain ⟨ss, k, i, h⟩ := returnRun_frame u allSlots
  refine ⟨fun n => ?_, ?_, fun free => ?_, ?_, ?_, ?_⟩
  · rw [returnRun_slot, slot]
  · rw [h]
    exact stock.nextHandle
  · rw [show allSlots = List.finRange 15 from rfl, returnRun_pool (List.nodup_finRange 15) fun n _ hb hn => ?_]
    · rw [stock.pool]
      exact congrArg (s.pool ++ ·) (List.filter_congr fun n _ => by rw [slot]; rfl)
    · rw [stock.pool] at hn
      rw [slot, free n hn] at hb
      cases hb
  · rw [h]
    exact stock.ringQueue
  · rw [h]
    exact stock.ringList
  · rw [h]
    exact stock.committed

theorem retireAll_counters (hr : ∀ p, Reads s p) (hs : ∀ n, (s.slot n).state = .bound → (s.slot n).damaged = false)
    (settle : Bool) : (s.retireAll settle).counters = s.counters ∧ ∀ p, Reads (s.retireAll settle) p := by
  obtain ⟨counters, reads⟩ := retireRun_counters (s := s.unring) hr settle allEntries
  have slot := retireRun_slot s settle
  have spares := retireAll_spares s settle
  refine ⟨?_, fun p => (reads_congr (spares p).line).mpr (reads p)⟩
  rw [retireAll_eq]
  generalize s.unring.retireRun settle allEntries = u at counters slot ⊢
  exact (returnRun_counters (fun n => by rw [slot]; exact hs n) allSlots).trans counters

end Sys2Proof.Machine
end

section
/-!
PROOFS. LinkLoss.lean: what the end of the loss hold leaves (O52).
-/
namespace Sys2Proof.Machine

open Sys2Proof.Safety

variable {s t u v : State} {p r : PortNo} {e : EntryNo} {b : Binding}

/-! ## The wait queue emptied (R108) -/

theorem locks_frame (ws : List Waiting) (s : State) :
    ∃ ps, ws.foldl (fun t w => t.place w.port .lockout) s = { s with ports := ps } := by
  induction ws generalizing s with
  | nil => exact ⟨_, rfl⟩
  | cons w ws ih =>
    obtain ⟨ps, h⟩ := ih (s.place w.port .lockout)
    exact ⟨ps, h⟩

theorem emptyQueue_frame (s : State) : ∃ ps, s.emptyQueue = { s with ports := ps, owq := [] } := by
  obtain ⟨ps, h⟩ := locks_frame s.owq s
  exact ⟨ps, by rw [State.emptyQueue, h]⟩

theorem locks_port (ws : List Waiting) (s : State) (fed : (s.port p).sup.fed = true) :
    (ws.foldl (fun t w => t.place w.port .lockout) s).port p =
      if p ∈ ws.map (·.port) then { s.port p with sup := .lockout } else s.port p := by
  induction ws generalizing s with
  | nil => rfl
  | cons w ws ih =>
    have first : (s.place w.port .lockout).port p = if p = w.port then { s.port p with sup := .lockout } else s.port p := by
      rw [State.place, State.port_setPort]
      split
      · next h => rw [← h, place_fed fed rfl]
      · rfl
    have still : ((s.place w.port .lockout).port p).sup.fed = true := by
      rw [first]
      split
      · rfl
      · exact fed
    rw [List.foldl_cons, ih _ still, first, List.map_cons]
    by_cases h : p = w.port
    · have here : p ∈ w.port :: ws.map (·.port) := by simp [h]
      rw [if_pos h, if_pos here]
      split <;> rfl
    · rw [if_neg h]
      by_cases hm : p ∈ ws.map (·.port)
      · rw [if_pos hm, if_pos (by simp [hm])]
      · rw [if_neg hm, if_neg (by simp [h, hm])]

theorem locks_elsewhere (ws : List Waiting) (s : State) (h : p ∉ ws.map (·.port)) :
    (ws.foldl (fun t w => t.place w.port .lockout) s).port p = s.port p := by
  induction ws generalizing s with
  | nil => rfl
  | cons w ws ih =>
    rw [List.map_cons, List.mem_cons, not_or] at h
    exact (ih _ h.2).trans (port_setPort_ne h.1 _)

theorem emptyQueue_locks (hw : s.waiting p = true) (hs : (s.port p).sup = .waitSlot) :
    s.emptyQueue.port p = { s.port p with sup := .lockout } :=
  (locks_port s.owq s (by rw [hs]; rfl)).trans (if_pos (waiting_iff.mp hw))

theorem emptyQueue_leaves (hw : s.waiting p = false) : s.emptyQueue.port p = s.port p :=
  locks_elsewhere s.owq s fun h => by simp [waiting_iff.mpr h] at hw

/-! ## The bus freed (R175) -/

theorem readToPlace_tables (h : NoCalls s) (p : PortNo) :
    (s.readToPlace p).tables = (if s.placementFault p then (s.withdraw p).quarantine p else s).tables := by
  unfold State.readToPlace
  split
  · exact (lineActions_noCalls (settle := true) h p).2
  · rfl

theorem still_readToPlace (s : State) (p : PortNo) : (s.readToPlace p).still = s.still := by
  unfold State.readToPlace
  split
  · exact still_lineActions s p
  · rfl

theorem disconnect_still (s : State) (p : PortNo) : (s.disconnect p).still = { s.still with bus := none } := by
  rw [disconnect_eq]
  exact congrArg (fun x : Still => { x with bus := none }) (still_readToPlace s p)

theorem spares_disconnect (h : NoCalls s) (hp : p ≠ r) : Spares s (s.disconnect r) p := by
  have read : Spares s (s.readToPlace r) p := by
    refine spares_of_tables (readToPlace_tables h r) ?_
    split
    · exact spares_lineLost hp s
    · exact .refl s p
  rw [disconnect_eq]
  generalize s.readToPlace r = t at read ⊢
  exact read.trans ⟨rfl, rfl, port_setPort_ne hp _, rfl⟩

theorem sameStock_disconnect (h : NoCalls s) (r : PortNo) : SameStock s (s.disconnect r) := by
  have read : SameStock s (s.readToPlace r) := by
    refine sameStock_of_tables (readToPlace_tables h r) ?_
    split
    · rw [State.quarantine_eq]
      exact ⟨rfl, rfl, rfl, rfl, rfl, rfl⟩
    · exact .refl s
  rw [disconnect_eq]
  generalize s.readToPlace r = t at read ⊢
  exact read.trans ⟨rfl, rfl, rfl, rfl, rfl, rfl⟩

theorem disconnect_counters (h : Reads s r) : (s.disconnect r).counters = s.counters := by
  have read : s.readToPlace r = s := if_neg (by simp [State.placementFault, not_placementFault h])
  rw [disconnect_eq, read]
  rfl

theorem freeBus_still (s : State) : s.freeBus.still = { s.still with bus := none } := by
  unfold State.freeBus
  split
  · exact disconnect_still s _
  · next hb =>
    rw [← hb]
    rfl

theorem sameStock_freeBus (h : NoCalls s) : SameStock s s.freeBus := by
  unfold State.freeBus
  split
  · exact sameStock_disconnect h _
  · exact .refl s

theorem spares_freeBus (h : NoCalls s) (hp : ∀ k, s.bus = some k → k.port ≠ p) : Spares s s.freeBus p := by
  unfold State.freeBus
  split
  · next k hk => exact spares_disconnect h (Ne.symm (hp k hk))
  · exact .refl s p

theorem freeBus_counters (h : ∀ p, Reads s p) : s.freeBus.counters = s.counters := by
  unfold State.freeBus
  split
  · exact disconnect_counters (h _)
  · rfl

/-! ## The event -/

theorem exec_lossHoldExpiry {k : Nat} (hl : s.link = .up) (hk : s.lossHold = some k) :
    exec .lossHoldExpiry s = .next s.linkLoss := by
  show execLossHoldExpiry s = _
  unfold execLossHoldExpiry
  rw [hl, hk]

/-- The link is down before anything retires (R194). -/
def State.downed (s : State) : State := { s with link := .down, lossHold := none, assembly := [] }

theorem markWalk_frame (s : State) : s.markWalk = { s with engine := s.markWalk.engine } := by
  unfold State.markWalk
  split <;> rfl

theorem linkLoss_marked (s : State) :
    s.linkLoss = { s.downed.loseCalls with engine := s.downed.loseCalls.markWalk.engine, out := s.out } := by
  rw [linkLoss_eq]
  show { s.downed.loseCalls.markWalk with out := s.out } = _
  generalize s.downed.loseCalls = y
  rw [markWalk_frame y]

/-- What a link loss does to the calls, the queue and the bus, as the steps that follow each other (R194). -/
theorem loseCalls_steps (u : State) :
    ∃ w x, w = u.retireAll true ∧ x = w.emptyQueue ∧ u.loseCalls = x.freeBus ∧ NoCalls x ∧
      (∃ ps, x = { w with ports := ps, owq := [] }) ∧ w.still = u.still :=
  ⟨_, _, rfl, rfl, rfl, (Loss.dequeued (settle := true) rfl).noCalls (noCalls_retireAll u true), emptyQueue_frame _,
    still_retireAll u true⟩

theorem loseCalls_still (u : State) : u.loseCalls.still = { u.still with bus := none } := by
  obtain ⟨w, x, _, _, lost, _, ⟨ps, frame⟩, still⟩ := loseCalls_steps u
  rw [lost, freeBus_still, frame, ← still]
  rfl

/-- A walk that will not be answered (R20). -/
def walkMarked : Engine → Engine
  | .walk w => .walk { w with linkLost := true }
  | x => x

theorem markWalk_engine (s : State) : s.markWalk.engine = walkMarked s.engine := by
  unfold State.markWalk
  cases h : s.engine with
  | walk w => rfl
  | idle => exact h
  | storeClear n => exact h

/-- A port off the bus: what its binding's retirement left, but for the lock-out of one that waited. -/
theorem loseCalls_elsewhere (h : ∀ k, u.bus = some k → k.port ≠ p) :
    u.loseCalls.line p = (u.retireAll true).line p ∧ u.loseCalls.indexKey p = (u.retireAll true).indexKey p ∧
      u.loseCalls.port p = (u.retireAll true).emptyQueue.port p := by
  obtain ⟨w, x, hw, hx, lost, calls, ⟨ps, frame⟩, still⟩ := loseCalls_steps u
  have bus : x.bus = u.bus := by
    rw [frame]
    exact congrArg Still.bus still
  have spares := spares_freeBus calls fun k hk => h k (bus ▸ hk)
  rw [lost, ← hw, ← hx, spares.line, spares.key, spares.port]
  refine ⟨?_, ?_, rfl⟩
  · rw [frame]
    rfl
  · rw [frame]
    rfl

/-- The port on the bus is placed by what its binding's retirement left of its record (R172, R175). -/
theorem loseCalls_tested {k : TestHold} (hb : u.bus = some k) (hr : Reads (u.retireAll true) k.port)
    (hs : ((u.retireAll true).port k.port).sup = .test) (hw : (u.retireAll true).waiting k.port = false) :
    u.loseCalls.line k.port = (u.retireAll true).line k.port ∧
      u.loseCalls.indexKey k.port = (u.retireAll true).indexKey k.port ∧
      u.loseCalls.port k.port = released (u.retireAll true) k.port := by
  have port := emptyQueue_leaves hw
  obtain ⟨w, x, hw', hx, lost, calls, ⟨ps, frame⟩, still⟩ := loseCalls_steps u
  rw [← hw'] at hr hs hw port ⊢
  rw [← hx] at port
  have bus : x.bus = some k := by
    rw [frame]
    exact (congrArg Still.bus still).trans hb
  have sense : x.sense = w.sense := by rw [frame]
  have line : x.line k.port = w.line k.port := by
    rw [frame]
    rfl
  have freed : x.freeBus = { x with bus := none, ports := x.ports.set k.port (released x k.port) } := by
    unfold State.freeBus
    rw [bus]
    exact disconnect_reads ((reads_congr line).mpr hr) (by rw [port, hs])
  have same : released x k.port = released w k.port := by
    unfold released
    rw [line, port, sense]
  rw [lost, freed]
  refine ⟨line, ?_, (port_porting { x with bus := none } k.port _).trans same⟩
  rw [frame]
  rfl

/-- A release of a record that reads good leaves the key index as it is. -/
theorem loseCalls_key (hr : Reads (u.retireAll true) p) (hb : ∀ k, u.bus = some k → k.port = p) :
    u.loseCalls.indexKey p = (u.retireAll true).indexKey p := by
  obtain ⟨w, x, hw, hx, lost, calls, ⟨ps, frame⟩, still⟩ := loseCalls_steps u
  rw [← hw] at hr ⊢
  have bus : x.bus = u.bus := by
    rw [frame]
    exact congrArg Still.bus still
  have reads : Reads x p := by
    rw [frame]
    exact hr
  have key : x.indexKey p = w.indexKey p := by
    rw [frame]
    rfl
  rw [lost, ← key]
  unfold State.freeBus
  split
  · next k hk =>
    rw [hb k (bus ▸ hk), disconnect_eq,
      show x.readToPlace p = x from if_neg (by simp [State.placementFault, not_placementFault reads])]
    rfl
  · rfl

theorem linkLoss_still (s : State) :
    s.linkLoss.still = { s.downed.still with bus := none, engine := walkMarked s.engine } := by
  have still := loseCalls_still s.downed
  rw [linkLoss_marked]
  generalize s.downed.loseCalls = y at still ⊢
  have engine : y.engine = s.engine := congrArg Still.engine still
  rw [markWalk_engine, engine]
  exact congrArg (fun x : Still => { x with engine := walkMarked s.engine }) still

theorem retireAll_uncalled (h : s.call p = none) (settle : Bool) : Spares s (s.retireAll settle) p :=
  ((spares_unring s p).trans (spares_uncalled (s := s.unring) h settle)).trans (retireAll_spares s settle p)

theorem retireAll_keeps (h : OnlyCall s p e b) (hr : Reads s p) (hc : ¬ Ceasing s p) (settle : Bool) :
    (s.retireAll settle).line p = totalled (s.line p) b.meterCount ∧
      (s.retireAll settle).indexKey p = s.indexKey p ∧
      (s.retireAll settle).port p =
        (if settle then settled { s.port p with injector := .idle } else { s.port p with injector := .idle }) ∧
      (s.retireAll settle).waiting p = s.waiting p := by
  obtain ⟨line, key, port, waiting⟩ := retireRun_keeps (s := s.unring) h hr hc settle
  have after := retireAll_spares s settle p
  exact ⟨after.line.trans line, after.key.trans key, after.port.trans port, after.waiting.trans waiting⟩

theorem retireAll_ceases (h : OnlyCall s p e b) (hr : Reads s p) (hc : Ceasing s p) (settle : Bool) :
    (s.retireAll settle).line p =
        { LineRecord.initial with total := min ((s.line p).total + b.meterCount) 16777215 } ∧
      (s.retireAll settle).indexKey p = none ∧
      (s.retireAll settle).port p = vacated
        (if settle then settled { s.port p with injector := .idle } else { s.port p with injector := .idle }) ∧
      (s.retireAll settle).waiting p = false := by
  obtain ⟨line, key, port, waiting⟩ := retireRun_ceases (s := s.unring) h hr hc settle
  have after := retireAll_spares s settle p
  exact ⟨after.line.trans line, after.key.trans key, after.port.trans port, after.waiting.trans waiting⟩

theorem rated_retireAll (hr : Reads s p) (hc : ¬ Ceasing s p) (settle : Bool) : Rated settle s (s.retireAll settle) p :=
  ((spares_unring s p).rated.trans (rated_retireRun (s := s.unring) hr hc settle allEntries)).trans
    (retireAll_spares s settle p).rated

/-- What the end of the loss hold leaves of slots, queues and counts. -/
theorem linkLoss_stock (s : State) :
    SameStock (s.downed.retireAll true) s.linkLoss ∧
      ((∀ p, Reads s p) → (∀ n, (s.slot n).state = .bound → (s.slot n).damaged = false) →
        s.linkLoss.counters = s.counters) := by
  rw [linkLoss_marked]
  obtain ⟨w, x, hw, _, lost, calls, ⟨ps, frame⟩, _⟩ := loseCalls_steps s.downed
  have stock : SameStock w x := by
    rw [frame]
    exact ⟨rfl, rfl, rfl, rfl, rfl, rfl⟩
  rw [lost, ← hw]
  have freed := sameStock_freeBus calls
  have counted := freeBus_counters (s := x)
  generalize x.freeBus = y at freed counted
  refine ⟨stock.trans (freed.trans ⟨rfl, rfl, rfl, rfl, rfl, rfl⟩), fun hr hs => ?_⟩
  obtain ⟨counters, reads⟩ := retireAll_counters (s := s.downed) hr hs true
  rw [← hw] at counters reads
  refine (counted fun p => ?_).trans ?_
  · rw [frame]
    exact reads p
  · rw [frame]
    exact counters

/-- What the end of the loss hold leaves of a port is what the calls, the queue and the bus left. -/
theorem linkLoss_port (s : State) (p : PortNo) :
    s.linkLoss.line p = s.downed.loseCalls.line p ∧ s.linkLoss.indexKey p = s.downed.loseCalls.indexKey p ∧
      s.linkLoss.port p = s.downed.loseCalls.port p := by
  rw [linkLoss_marked]
  generalize s.downed.loseCalls = y
  exact ⟨rfl, rfl, rfl⟩

theorem released_idled (h : v.line p = totalled (s.line p) k) (hp : v.port p = { s.port p with injector := .idle })
    (hs : v.sense = s.sense) : released v p = { released s p with injector := .idle } := by
  have row (r : LineRecord) : (totalled r k).withdrawn = r.withdrawn ∧ (totalled r k).status = r.status ∧
      (totalled r k).cls = r.cls ∧ (totalled r k).keep = r.keep := by
    unfold totalled
    split <;> exact ⟨rfl, rfl, rfl, rfl⟩
  obtain ⟨withdrawn, status, cls, keep⟩ := row (s.line p)
  unfold released
  rw [h, hp, hs, withdrawn, status, cls, keep]
  dsimp only
  by_cases gone : (s.line p).withdrawn = true
  · rw [if_pos gone, if_pos gone]
  rw [if_neg gone, if_neg gone]
  by_cases vacant : (s.line p).status = .vacant
  · rw [if_pos vacant, if_pos vacant]
  rw [if_neg vacant, if_neg vacant]
  by_cases parks : s.sense.power = .survival ∧ (s.line p).cls = .ordinary ∧ (s.line p).keep = false
  · rw [if_pos parks, if_pos parks]
  rw [if_neg parks, if_neg parks]
  by_cases off : (s.port p).hook = .off
  · rw [if_pos off, if_pos off]
  · rw [if_neg off, if_neg off]

/-- Every binding of the state at the link loss has retired, and its slot is given up. -/
def State.emptied (s : State) : State := s.downed.retireAll true

/-- A port off the bus, after its binding and its place in the queue are gone (R108). -/
theorem linkLoss_elsewhere (away : ∀ k, s.bus = some k → k.port ≠ p) :
    s.linkLoss.line p = s.emptied.line p ∧ s.linkLoss.indexKey p = s.emptied.indexKey p ∧
      (s.emptied.waiting p = false → s.linkLoss.port p = s.emptied.port p) ∧
      (s.emptied.waiting p = true → (s.emptied.port p).sup = .waitSlot →
        s.linkLoss.port p = { s.emptied.port p with sup := .lockout }) := by
  obtain ⟨line, key, port⟩ := linkLoss_port s p
  obtain ⟨line', key', port'⟩ := loseCalls_elsewhere (u := s.downed) away
  exact ⟨line.trans line', key.trans key', fun hw => port.trans (port'.trans (emptyQueue_leaves hw)),
    fun hw hs => port.trans (port'.trans (emptyQueue_locks hw hs))⟩

/-- The port on the bus. -/
theorem linkLoss_tested {k : TestHold} (hb : s.bus = some k) (hr : Reads s.emptied k.port) :
    s.linkLoss.indexKey k.port = s.emptied.indexKey k.port ∧
      ((s.emptied.port k.port).sup = .test → s.emptied.waiting k.port = false →
        s.linkLoss.line k.port = s.emptied.line k.port ∧ s.linkLoss.port k.port = released s.emptied k.port) := by
  obtain ⟨line, key, port⟩ := linkLoss_port s k.port
  have bus : s.downed.bus = some k := hb
  refine ⟨key.trans (loseCalls_key hr fun j hj => ?_), fun ht hw => ?_⟩
  · rw [bus] at hj
    cases hj
    rfl
  · obtain ⟨line', _, port'⟩ := loseCalls_tested bus hr ht hw
    exact ⟨line.trans line', port.trans port'⟩

theorem emptied_sense (s : State) : s.emptied.sense = s.sense := by
  have still := still_retireAll s.downed true
  unfold State.emptied
  generalize s.downed.retireAll true = w at still ⊢
  exact congrArg Still.sense still

theorem spares_downed (s : State) (p : PortNo) : Spares s s.downed p := ⟨rfl, rfl, rfl, rfl⟩

theorem emptied_uncalled (h : s.call p = none) : Spares s s.emptied p :=
  (spares_downed s p).trans (retireAll_uncalled (s := s.downed) h true)

theorem emptied_keeps (h : OnlyCall s p e b) (hr : Reads s p) (hc : ¬ Ceasing s p) :
    s.emptied.line p = totalled (s.line p) b.meterCount ∧
      s.emptied.port p = settled { s.port p with injector := .idle } ∧ s.emptied.waiting p = s.waiting p := by
  obtain ⟨line, _, port, waiting⟩ := retireAll_keeps (s := s.downed) h hr hc true
  exact ⟨line, port, waiting⟩

theorem emptied_ceases (h : OnlyCall s p e b) (hr : Reads s p) (hc : Ceasing s p) :
    s.emptied.line p = { LineRecord.initial with total := min ((s.line p).total + b.meterCount) 16777215 } ∧
      s.emptied.indexKey p = none ∧
      s.emptied.port p = vacated (settled { s.port p with injector := .idle }) ∧ s.emptied.waiting p = false :=
  retireAll_ceases (s := s.downed) h hr hc true

theorem emptied_rated (hr : Reads s p) (hc : ¬ Ceasing s p) : Rated true s s.emptied p :=
  (spares_downed s p).rated.trans (rated_retireAll (s := s.downed) hr hc true)

/-- A port that is not BOUND is not settled by the end of its call (R45). -/
theorem settled_unbound {q : Port} (h : q.sup ≠ .bound) : settled q = q := if_neg h

theorem linkLoss_kept (hr : Reads s p) (hc : ¬ Ceasing s p) (away : ∀ k, s.bus = some k → k.port ≠ p) :
    s.linkLoss.indexKey p = s.indexKey p ∧
      (s.call p = none → s.linkLoss.line p = s.line p ∧
        (s.waiting p = false → s.linkLoss.port p = s.port p) ∧
        (s.waiting p = true → (s.port p).sup = .waitSlot → s.linkLoss.port p = { s.port p with sup := .lockout })) ∧
      ∀ e b, OnlyCall s p e b →
        s.linkLoss.line p = totalled (s.line p) b.meterCount ∧
        (s.waiting p = false → s.linkLoss.port p = settled { s.port p with injector := .idle }) ∧
        (s.waiting p = true → (s.port p).sup = .waitSlot →
          s.linkLoss.port p = { s.port p with sup := .lockout, injector := .idle }) := by
  obtain ⟨line, key, leaves, locks⟩ := linkLoss_elsewhere away
  refine ⟨key.trans (emptied_rated hr hc).key, fun none => ?_, fun e b only => ?_⟩
  · obtain ⟨line', _, port', waiting'⟩ := emptied_uncalled none
    rw [port', waiting'] at leaves locks
    exact ⟨line.trans line', leaves, locks⟩
  · obtain ⟨line', port', waiting'⟩ := emptied_keeps only hr hc
    rw [port', waiting'] at leaves locks
    refine ⟨line.trans line', leaves, fun hw hs => ?_⟩
    have unbound : ({ s.port p with injector := .idle } : Port).sup ≠ .bound := by
      show (s.port p).sup ≠ .bound
      rw [hs]
      decide
    rw [settled_unbound unbound] at locks
    exact locks hw hs

theorem linkLoss_placed {k : TestHold} (hb : s.bus = some k) (ht : (s.port k.port).sup = .test)
    (hw : s.waiting k.port = false) (hr : Reads s k.port) (hc : ¬ Ceasing s k.port) :
    s.linkLoss.indexKey k.port = s.indexKey k.port ∧
      (s.call k.port = none → s.linkLoss.line k.port = s.line k.port ∧ s.linkLoss.port k.port = released s k.port) ∧
      ∀ e b, OnlyCall s k.port e b →
        s.linkLoss.line k.port = totalled (s.line k.port) b.meterCount ∧
        s.linkLoss.port k.port = { released s k.port with injector := .idle } := by
  have rated := emptied_rated hr hc
  obtain ⟨key, places⟩ := linkLoss_tested hb (rated.reads hr)
  refine ⟨key.trans rated.key, fun none => ?_, fun e b only => ?_⟩
  · obtain ⟨line', _, port', waiting'⟩ := emptied_uncalled none
    obtain ⟨line, port⟩ := places (by rw [port', ht]) (by rw [waiting', hw])
    refine ⟨line.trans line', port.trans ?_⟩
    unfold released
    rw [line', port', emptied_sense]
  · obtain ⟨line', port', waiting'⟩ := emptied_keeps only hr hc
    rw [settled_unbound (by rw [ht]; decide)] at port'
    obtain ⟨line, port⟩ := places (by rw [port', ht]) (by rw [waiting', hw])
    exact ⟨line.trans line', port.trans (released_idled line' port' (emptied_sense s))⟩

theorem linkLoss_vacated {k : TestHold} (hb : s.bus = some k) (ht : (s.port k.port).sup = .test) (hr : InUse s k.port)
    (hc : Ceasing s k.port) (only : OnlyCall s k.port e b) :
    s.linkLoss.line k.port = { LineRecord.initial with total := min ((s.line k.port).total + b.meterCount) 16777215 } ∧
      s.linkLoss.indexKey k.port = none ∧ s.linkLoss.port k.port = retiredVacant (s.port k.port) := by
  obtain ⟨line', key', port', waiting'⟩ := emptied_ceases only (.inr hr.2) hc
  rw [settled_unbound (by rw [ht]; decide), vacated, if_pos (by exact ht)] at port'
  obtain ⟨key, places⟩ := linkLoss_tested hb (.inr (by rw [line']; rfl))
  obtain ⟨line, port⟩ := places (by rw [port', ht]) waiting'
  refine ⟨line.trans line', key.trans key', port.trans ?_⟩
  unfold released retiredVacant
  rw [line', port', if_neg (by simp [LineRecord.initial]), if_pos (by rfl)]

/-- Settles O52: each port is followed through the retirement of its binding, the queue and the bus. -/
theorem linkLossEndsCalls : Obligations.LinkLossEndsCalls := by
  intro s k hl hk
  have still := linkLoss_still s
  obtain ⟨stock, counters⟩ := linkLoss_stock s
  obtain ⟨slot, next, pool, queue, list, committed⟩ := retireAll_slots s.downed true
  obtain ⟨owq, bus⟩ := linkLoss_free s
  have out := linkLoss_out s
  have calls := (linkLoss_empty s).1
  have kept {p : PortNo} := @linkLoss_kept s p
  have placed {h : TestHold} := @linkLoss_placed s h
  have vacates {e : EntryNo} {b : Binding} {h : TestHold} := @linkLoss_vacated s e b h
  refine ⟨s.linkLoss, exec_lossHoldExpiry hl hk, ?_⟩
  generalize s.linkLoss = t at *
  have slots (n : SlotNo) : t.slot n = givenUp (s.slot n) :=
    (congrArg (fun v : Vector Slot 15 => v[n]) stock.slots).trans (slot n)
  refine ⟨?_, ?_, ?_, counters, fun p hr hc away => ?_, fun p h hb hp ht hw => ?_⟩
  · exact ⟨congrArg Still.link still, congrArg Still.lossHold still, congrArg Still.assembly still, out, owq,
      stock.ringQueue.trans queue, stock.ringList.trans list, stock.committed.trans committed, bus,
      calls, slots, fun free => stock.pool.trans (pool free)⟩
  · exact ⟨congrArg Still.params still, congrArg Still.keyPrefix still, congrArg Still.cursor still,
      congrArg Still.advance still, congrArg Still.cadences still, stock.nextHandle.trans next, congrArg Still.sense still,
      congrArg Still.available still, congrArg Still.sweepPos still, congrArg Still.sweepLeft still,
      congrArg Still.framer still, congrArg Still.resetLine still, congrArg Still.pendingRestart still⟩
  · rw [show t.engine = walkMarked s.engine from congrArg Still.engine still]
    cases s.engine <;> rfl
  · exact kept hr hc away
  · subst hp
    exact ⟨placed hb ht hw, fun hr hc e b => vacates hb ht hr hc⟩

end Sys2Proof.Machine
end

section
/-!
PROOFS. WarmReset.lean: what a warm reset leaves (O53).
-/
namespace Sys2Proof.Machine

open Sys2Proof.Safety

variable {s t u v : State} {p r : PortNo} {e : EntryNo} {b : Binding}

/-! ## One port placed (R48) -/

/-- The marker and a partial digit are lost, and the injector rests. -/
def State.wiped (s : State) (p : PortNo) : State :=
  s.setPort p { s.port p with parkPending := false, pulses := 0, makeTimer := none, injector := .idle }

theorem resetPort_eq (s : State) (p : PortNo) :
    s.resetPort p = ((s.wiped p).readToPlace p).place p (((s.wiped p).readToPlace p).placeOf p) := by
  show (if (((s.wiped p).readToPlace p).line p).withdrawn = true then ((s.wiped p).readToPlace p).place p .quarantine
    else ((s.wiped p).readToPlace p).place p (((s.wiped p).readToPlace p).returnState p)) = _
  unfold State.placeOf
  split <;> rfl

theorem noCalls_wiped (h : NoCalls s) (p : PortNo) : NoCalls (s.wiped p) := h

/-- A placement writes the port, its line and the queue alone. -/
theorem resetPort_tables (h : NoCalls s) (p : PortNo) :
    ∃ ps ls ks ws, (s.resetPort p).tables = { s.tables with ports := ps, lines := ls, keyIndex := ks, owq := ws } := by
  have read := readToPlace_tables (noCalls_wiped h p) p
  rw [resetPort_eq]
  generalize (s.wiped p).readToPlace p = t at read
  have placed : (t.place p (t.placeOf p)).tables =
      { t.tables with ports := t.tables.ports.set p ((t.port p).place (t.placeOf p)) } := rfl
  rw [placed, read]
  split
  · rw [State.quarantine_eq]
    exact ⟨_, _, _, _, rfl⟩
  · exact ⟨_, _, _, _, rfl⟩

theorem spares_resetPort (h : NoCalls s) (hp : p ≠ r) : Spares s (s.resetPort r) p := by
  have wiped : Spares s (s.wiped r) p := spares_setPort hp s _
  have read : Spares (s.wiped r) ((s.wiped r).readToPlace r) p := by
    refine spares_of_tables (readToPlace_tables (noCalls_wiped h r) r) ?_
    split
    · exact spares_lineLost hp _
    · exact .refl _ p
  rw [resetPort_eq]
  generalize (s.wiped r).readToPlace r = t at read ⊢
  exact (wiped.trans read).trans (spares_setPort hp t _)

/-- A port whose record reads good is placed by the record, the power state and its hook. -/
theorem resetPort_reads (hr : Reads s p) : s.resetPort p = s.setPort p (replaced s p) := by
  have read : (s.wiped p).readToPlace p = s.wiped p := if_neg (by
    rw [show (s.wiped p).placementFault p = _ from not_placementFault hr]
    decide)
  have port : (s.wiped p).port p =
      { s.port p with parkPending := false, pulses := 0, makeTimer := none, injector := .idle } := port_porting s p _
  have placed (st : SupState) : (s.wiped p).place p st = s.setPort p
      (({ s.port p with parkPending := false, pulses := 0, makeTimer := none, injector := .idle } : Port).place st) := by
    unfold State.place
    rw [port]
    exact porting_porting s p _ _
  have parkable : s.parkable p = true ↔
      s.sense.power = .survival ∧ (s.line p).cls = .ordinary ∧ (s.line p).keep = false := by
    simp [State.parkable, LineRecord.parkableClass]
  rw [resetPort_eq, read, placed]
  refine congrArg (s.setPort p) ?_
  unfold State.placeOf State.returnState replaced
  rw [port, show (s.wiped p).line p = s.line p from rfl, show (s.wiped p).parkable p = s.parkable p from rfl]
  simp only [parkable]
  by_cases gone : (s.line p).withdrawn = true
  · rw [if_pos gone, if_pos gone]
  rw [if_neg gone, if_neg gone]
  by_cases vacant : (s.line p).status = .vacant
  · rw [if_pos vacant, if_pos vacant]
  rw [if_neg vacant, if_neg vacant]
  by_cases parks : s.sense.power = .survival ∧ (s.line p).cls = .ordinary ∧ (s.line p).keep = false
  · rw [if_pos parks, if_pos parks]
  rw [if_neg parks, if_neg parks]
  by_cases off : (s.port p).hook = .off
  · rw [if_pos off, if_pos off]
  · rw [if_neg off, if_neg off]

/-! ## Every port placed -/

theorem resetRun_tables (h : NoCalls s) (rs : List PortNo) :
    ∃ ps ls ks ws, (rs.foldl State.resetPort s).tables =
      { s.tables with ports := ps, lines := ls, keyIndex := ks, owq := ws } := by
  induction rs generalizing s with
  | nil => exact ⟨_, _, _, _, rfl⟩
  | cons r rs ih =>
    obtain ⟨_, _, _, _, first⟩ := resetPort_tables h r
    have calls : NoCalls (s.resetPort r) := (losses_resetPort h r).keeps Loss.noCalls h
    obtain ⟨ps, ls, ks, ws, rest⟩ := ih calls
    exact ⟨ps, ls, ks, ws, by rw [List.foldl_cons, rest, first]⟩

theorem spares_resetRun {rs : List PortNo} (h : NoCalls s) (hp : p ∉ rs) : Spares s (rs.foldl State.resetPort s) p := by
  induction rs generalizing s with
  | nil => exact .refl s p
  | cons r rs ih =>
    rw [List.mem_cons, not_or] at hp
    exact (spares_resetPort h hp.1).trans (ih ((losses_resetPort h r).keeps Loss.noCalls h) hp.2)

theorem replaced_congr (hl : t.line p = s.line p) (hp : t.port p = s.port p) (hs : t.sense = s.sense) :
    replaced t p = replaced s p := by
  unfold replaced
  rw [hl, hp, hs]

theorem resetRun_reads (h : NoCalls s) (hr : Reads s p) :
    (allPorts.foldl State.resetPort s).line p = s.line p ∧ (allPorts.foldl State.resetPort s).indexKey p = s.indexKey p ∧
      (allPorts.foldl State.resetPort s).port p = replaced s p := by
  obtain ⟨before, after, all⟩ := List.append_of_mem (List.mem_finRange p)
  have once : (before ++ p :: after).Nodup := all ▸ List.nodup_finRange 48
  have apart : p ∉ before ∧ p ∉ after := by
    have out := (List.nodup_cons.mp (List.perm_middle.nodup_iff.mp once)).1
    simpa using out
  rw [show allPorts = before ++ p :: after from all, List.foldl_append, List.foldl_cons]
  have early := spares_resetRun h apart.1
  have still : (before.foldl State.resetPort s).still = s.still := still_foldl s _ still_resetPort before
  have calls : NoCalls (before.foldl State.resetPort s) := (losses_resetPorts before s h).keeps Loss.noCalls h
  generalize before.foldl State.resetPort s = u at early still calls ⊢
  have reads : Reads u p := (reads_congr early.line).mpr hr
  have late := spares_resetRun ((losses_resetPort calls p).keeps Loss.noCalls calls) apart.2
  rw [resetPort_reads reads] at late ⊢
  have same := replaced_congr early.line early.port (congrArg Still.sense still)
  refine ⟨late.line.trans early.line, late.key.trans early.key, late.port.trans ((port_porting u p _).trans same)⟩

/-! ## The state that the placement starts from -/

/-- Every binding has retired, the engine at rest (R208). -/
def State.drained (s : State) : State := ({ s with engine := .idle } : State).retireAll false

theorem emptyEntries_frame (s : State) : ∃ es, s.emptyEntries = { s with entries := es } := by
  have run (es : List EntryNo) (t : State) : ∃ xs, es.foldl (fun t e => t.writeEntry e none) t = { t with entries := xs } := by
    induction es generalizing t with
    | nil => exact ⟨_, rfl⟩
    | cons e es ih =>
      obtain ⟨xs, h⟩ := ih (t.writeEntry e none)
      exact ⟨xs, h⟩
  exact run allEntries s

theorem emptyEntries_entry (s : State) (e : EntryNo) : s.emptyEntries.entry e = { binding := none, damaged := false } := by
  have here := foldl_at (f := fun (t : State) (f : EntryNo) => t.writeEntry f none) (State.entry · e) e
    (g := fun _ => { binding := none, damaged := false }) (fun t => (entry_writeEntry_at t e e none).trans (if_pos rfl))
    (fun t f h => (entry_writeEntry_at t f e none).trans (if_neg (Ne.symm h))) (List.nodup_finRange 15) s
  exact here.trans (if_pos (List.mem_finRange e))

theorem halted_eq (s : State) :
    ∃ es, s.halted = { s.drained with entries := es, nextHandle := 1, owq := [], bus := none } := by
  show ∃ es, { s.drained.emptyEntries with nextHandle := 1, owq := [], bus := none } = _
  generalize s.drained = u
  obtain ⟨es, h⟩ := emptyEntries_frame u
  exact ⟨es, by rw [h]⟩

theorem halted_port (s : State) (p : PortNo) :
    s.halted.line p = s.drained.line p ∧ s.halted.indexKey p = s.drained.indexKey p ∧
      s.halted.port p = s.drained.port p := by
  obtain ⟨es, h⟩ := halted_eq s
  rw [h]
  generalize s.drained = u
  exact ⟨rfl, rfl, rfl⟩

theorem halted_still (s : State) : s.halted.still = { s.still with engine := .idle, bus := none } := by
  obtain ⟨es, h⟩ := halted_eq s
  have still : s.drained.still = { s.still with engine := .idle } := still_retireAll { s with engine := .idle } false
  rw [h]
  generalize s.drained = u at still ⊢
  exact congrArg (fun x : Still => { x with bus := none }) still

theorem halted_entry (s : State) (e : EntryNo) : s.halted.entry e = { binding := none, damaged := false } := by
  have entry := emptyEntries_entry s.drained e
  show State.entry { s.drained.emptyEntries with nextHandle := 1, owq := [], bus := none } e = _
  generalize s.drained.emptyEntries = u at entry ⊢
  exact entry

/-- What the placement of the ports leaves, and the values a warm reset writes (R208). -/
theorem warmReset_eq (s : State) :
    s.warmReset =
      { allPorts.foldl State.resetPort s.halted with
        cursor := 0, advance := AdvanceMode.initial, sweepPos := 0, sweepLeft := sweepStepMs
        counters := Counters.zero, out := s.out } := by
  simp only [State.warmReset, State.silently, State.halted]

theorem warmReset_still (s : State) :
    s.warmReset.still =
      { s.still with
        engine := .idle, bus := none, cursor := 0, advance := AdvanceMode.initial, sweepPos := 0
        sweepLeft := sweepStepMs } := by
  have still := (still_foldl s.halted _ still_resetPort allPorts).trans (halted_still s)
  rw [warmReset_eq]
  generalize allPorts.foldl State.resetPort s.halted = w at still ⊢
  exact congrArg (fun x : Still => { x with
    cursor := 0, advance := AdvanceMode.initial, sweepPos := 0, sweepLeft := sweepStepMs }) still

theorem drained_slots (s : State) :
    (∀ n, s.drained.slot n = givenUp (s.slot n)) ∧
      ((∀ n ∈ s.pool, (s.slot n).state = .free) → s.drained.pool = s.pool ++ comingFree s) ∧
      s.drained.ringQueue = [] ∧ s.drained.ringList = [] ∧ s.drained.committed = 0 := by
  unfold State.drained
  obtain ⟨slot, _, pool, queue, list, committed⟩ := retireAll_slots { s with engine := .idle } false
  generalize ({ s with engine := .idle } : State).retireAll false = d at *
  exact ⟨slot, pool, queue, list, committed⟩

theorem halted_slots (s : State) :
    (∀ n, s.halted.slot n = givenUp (s.slot n)) ∧
      ((∀ n ∈ s.pool, (s.slot n).state = .free) → s.halted.pool = s.pool ++ comingFree s) ∧
      s.halted.ringQueue = [] ∧ s.halted.ringList = [] ∧ s.halted.committed = 0 ∧ s.halted.nextHandle = 1 := by
  obtain ⟨slot, pool, queue, list, committed⟩ := drained_slots s
  obtain ⟨es, halted⟩ := halted_eq s
  rw [halted]
  generalize s.drained = d at *
  exact ⟨slot, pool, queue, list, committed, rfl⟩

theorem warmReset_stock (s : State) :
    (∀ n, s.warmReset.slot n = givenUp (s.slot n)) ∧
      ((∀ n ∈ s.pool, (s.slot n).state = .free) → s.warmReset.pool = s.pool ++ comingFree s) ∧
      s.warmReset.ringQueue = [] ∧ s.warmReset.ringList = [] ∧ s.warmReset.committed = 0 ∧ s.warmReset.nextHandle = 1 ∧
      ∀ e, s.warmReset.entry e = { binding := none, damaged := false } := by
  obtain ⟨slot, pool, queue, list, committed, next⟩ := halted_slots s
  obtain ⟨ps, ls, ks, ws, tables⟩ := resetRun_tables (noCalls_halted s) allPorts
  have entry := halted_entry s
  rw [warmReset_eq]
  generalize allPorts.foldl State.resetPort s.halted = w at tables ⊢
  generalize s.halted = h at *
  have entries : w.entries = h.entries := congrArg Tables.entries tables
  have slots : w.slots = h.slots := congrArg Tables.slots tables
  have pools : w.pool = h.pool := congrArg Tables.pool tables
  have queues : w.ringQueue = h.ringQueue := congrArg Tables.ringQueue tables
  have lists : w.ringList = h.ringList := congrArg Tables.ringList tables
  have sums : w.committed = h.committed := congrArg Tables.committed tables
  have handles : w.nextHandle = h.nextHandle := congrArg Tables.nextHandle tables
  refine ⟨fun n => ?_, fun free => pools.trans (pool free), queues.trans queue, lists.trans list, sums.trans committed,
    handles.trans next, fun e => ?_⟩
  · exact (congrArg (fun v : Vector Slot 15 => v[n]) slots).trans (slot n)
  · exact (congrArg (fun v : Vector Entry 15 => v[e]) entries).trans (entry e)

/-! ## The ports -/

/-- The state of a warm reset before anything retires. -/
theorem spares_undrained (s : State) (p : PortNo) : Spares s ({ s with engine := .idle } : State) p := ⟨rfl, rfl, rfl, rfl⟩

theorem drained_uncalled (h : s.call p = none) : Spares s s.drained p :=
  (spares_undrained s p).trans (retireAll_uncalled (s := { s with engine := .idle }) h false)

theorem drained_rated (hr : Reads s p) (hc : ¬ Ceasing s p) : Rated false s s.drained p :=
  (spares_undrained s p).rated.trans (rated_retireAll (s := { s with engine := .idle }) hr hc false)

theorem drained_keeps (h : OnlyCall s p e b) (hr : Reads s p) (hc : ¬ Ceasing s p) :
    s.drained.line p = totalled (s.line p) b.meterCount :=
  (retireAll_keeps (s := { s with engine := .idle }) h hr hc false).1

theorem drained_ceases (h : OnlyCall s p e b) (hr : Reads s p) (hc : Ceasing s p) :
    s.drained.line p = { LineRecord.initial with total := min ((s.line p).total + b.meterCount) 16777215 } ∧
      s.drained.indexKey p = none ∧ s.drained.port p = vacated { s.port p with injector := .idle } := by
  obtain ⟨line, key, port, _⟩ := retireAll_ceases (s := { s with engine := .idle }) h hr hc false
  exact ⟨line, key, port⟩

/-- A port at a warm reset is placed from what the retirements leave (R48, R208). -/
theorem warmReset_port (hr : Reads s.drained p) :
    s.warmReset.line p = s.drained.line p ∧ s.warmReset.indexKey p = s.drained.indexKey p ∧
      s.warmReset.port p = replaced s.halted p := by
  obtain ⟨line, key, port⟩ := halted_port s p
  obtain ⟨line', key', port'⟩ := resetRun_reads (noCalls_halted s) ((reads_congr line).mpr hr)
  rw [warmReset_eq]
  generalize allPorts.foldl State.resetPort s.halted = w at line' key' port' ⊢
  exact ⟨line'.trans line, key'.trans key, port'⟩

theorem halted_sense (s : State) : s.halted.sense = s.sense := by
  have still := halted_still s
  generalize s.halted = h at still ⊢
  exact congrArg Still.sense still

/-- The placement does not look at the total or the injector. -/
theorem replaced_like (hl : ∃ n, t.line p = { s.line p with total := n })
    (hp : ∃ i, t.port p = { s.port p with injector := i }) (hs : t.sense = s.sense) : replaced t p = replaced s p := by
  obtain ⟨n, line⟩ := hl
  obtain ⟨i, port⟩ := hp
  unfold replaced
  rw [line, port, hs]

theorem warmReset_keeps (hr : Reads s p) (hc : ¬ Ceasing s p) :
    s.warmReset.port p = replaced s p ∧ s.warmReset.indexKey p = s.indexKey p ∧
      (s.call p = none → s.warmReset.line p = s.line p) ∧
      ∀ e b, OnlyCall s p e b → s.warmReset.line p = totalled (s.line p) b.meterCount := by
  have rated := drained_rated hr hc
  obtain ⟨line, key, port⟩ := warmReset_port (rated.reads hr)
  obtain ⟨lineH, _, portH⟩ := halted_port s p
  have same : replaced s.halted p = replaced s p :=
    replaced_like (by rw [lineH]; exact rated.line) (by rw [portH]; exact rated.port rfl) (halted_sense s)
  exact ⟨port.trans same, key.trans rated.key, fun none => line.trans (drained_uncalled none).line,
    fun e b only => line.trans (drained_keeps only hr hc)⟩

/-- A deferred cease completes at a warm reset (R92). -/
theorem warmReset_ceases (h : OnlyCall s p e b) (hr : Reads s p) (hc : Ceasing s p) :
    s.warmReset.line p = { LineRecord.initial with total := min ((s.line p).total + b.meterCount) 16777215 } ∧
      s.warmReset.indexKey p = none ∧ s.warmReset.port p = retiredVacant (s.port p) := by
  obtain ⟨line', key', port'⟩ := drained_ceases h hr hc
  obtain ⟨line, key, port⟩ := warmReset_port (s := s) (p := p) (.inr (by rw [line']; rfl))
  obtain ⟨lineH, _, portH⟩ := halted_port s p
  refine ⟨line.trans line', key.trans key', port.trans ?_⟩
  unfold replaced retiredVacant
  rw [lineH, portH, line', port', if_neg (by simp [LineRecord.initial]), if_pos (by rfl)]
  unfold vacated
  split <;> rfl

/-- A warm reset leaves what R208 says, wherever it happens. -/
theorem warmlyReset (s : State) : WarmlyReset s s.warmReset := by
  have still := warmReset_still s
  obtain ⟨slot, pool, queue, list, committed, next, entry⟩ := warmReset_stock s
  have owq : s.warmReset.owq = [] := (warmReset_halted s).keeps Loss.owq_nil rfl
  have counters : s.warmReset.counters = Counters.zero := by rw [warmReset_eq]
  have ports {p : PortNo} := @warmReset_keeps s p
  generalize s.warmReset = t at *
  exact ⟨entry, next, queue, list, committed, owq, congrArg Still.bus still, congrArg Still.engine still,
    congrArg Still.cursor still, congrArg Still.advance still, congrArg Still.sweepPos still, congrArg Still.sweepLeft still,
    by rw [counters]; rfl, congrArg Still.keyPrefix still, congrArg Still.cadences still, congrArg Still.params still,
    congrArg Still.sense still, congrArg Still.available still, slot, pool, fun p hr hc => ports hr hc⟩

/-! ## The events -/

theorem ack_quiet (hq : Quiet s) (tag : Nat) (c : Code) : s.ack tag c = telling s [.ack tag c] := by
  have sent := voice_sendNow (s := s) false [] (.ack tag c)
  rw [voice_begin hq] at sent
  show (s.sendNow (.ack tag c)).release = _
  rw [sent, voice_release, voice_telling _ _ hq]
  rfl

theorem exec_resetCabinet (hl : Listening s) (tag : Nat) :
    exec (.resetCabinet tag) s =
      .next ((s.ack tag .ok).warmReset.sendRestart .command (s.ack tag .ok).warmReset.failedNow) :=
  congrArg Host.Outcome.next (if_pos (by simp [State.canTake, hl.1, hl.2]))

theorem exec_resetLineAsserted (hr : s.resetLine = .released) (hc : s.storeClearing = false) :
    exec .resetLineAsserted s =
      .next { ({ s with resetLine := .asserted } : State).warmReset with
        link := .down, lossHold := none, alignHold := none, assembly := []
        pendingRestart := s.pendingRestart.afterReset } := by
  have asserted : ({ s with resetLine := .asserted } : State).storeClearing = false := hc
  exact congrArg Host.Outcome.next ((if_neg (by simp [hr])).trans (if_neg (by simp [asserted])))

/-- RESTART and the reports after it, of a state that holds nothing back. -/
theorem sendRestart_telling (hq : Quiet s) (c : RestartCause) (n : Nat) :
    s.sendRestart c n = telling s (.restart c n :: restartReports s) := by
  have sent := sendRestart_voice false s [] [] c n
  rw [voice_begin hq, voice_telling _ _ hq] at sent
  exact sent

/-- Settles O53: both events make one warm reset; what differs is the link and what is said. -/
theorem warmResets : Obligations.WarmResets := by
  refine ⟨fun s tag hl hq => ?_, fun s hr hc => ?_, fun s => ⟨fun h => ?_, fun hr hc => ?_, fun h => ?_,
    fun h => ⟨fun hd hf hc => ?_, fun h' => ?_⟩⟩⟩
  · have acts := exec_resetCabinet hl tag
    rw [ack_quiet hq, telling_eq] at acts
    let u : State := { s with out := said s [.ack tag .ok] }
    have reset := warmlyReset u
    have still := warmReset_still u
    have out := warmReset_out u
    have told : Quiet (telling s [.ack tag .ok]) := quiet_telling hq _
    rw [telling_eq] at told
    have quiet : Quiet u.warmReset := quiet_warmReset told
    rw [sendRestart_telling quiet, telling_eq] at acts
    refine ⟨_, acts, ?_⟩
    have acked : u.out = { s.out with sent := s.out.sent ++ [.ack tag .ok] } := by simp [u, said, hl.1]
    generalize u.warmReset = w at *
    have up : w.link = .up := (congrArg Still.link still).trans hl.1
    have sense : w.sense = s.sense := congrArg Still.sense still
    refine ⟨reset, up, congrArg Still.assembly still, congrArg Still.pendingRestart still, ?_⟩
    show said w _ = _
    unfold said restartReports State.powerReport
    rw [if_pos up, out, acked, sense]
    simp only [List.append_assoc, List.cons_append, List.nil_append]
    rfl
  · have reset := warmlyReset { s with resetLine := .asserted }
    have still := warmReset_still { s with resetLine := .asserted }
    have out := warmReset_out { s with resetLine := .asserted }
    have acts := exec_resetLineAsserted hr hc
    refine ⟨_, acts, ?_⟩
    generalize ({ s with resetLine := .asserted } : State).warmReset = t at *
    refine ⟨reset, congrArg Still.resetLine still, rfl, rfl, rfl, rfl, out, ?_⟩
    show s.pendingRestart.afterReset = _
    unfold PendingRestart.afterReset
    cases s.pendingRestart <;> rfl
  · exact congrArg Host.Outcome.next (if_pos h)
  · have clearing : ({ s with resetLine := .asserted } : State).storeClearing = true := hc
    exact congrArg Host.Outcome.next ((if_neg (by simp [hr])).trans (if_pos clearing))
  · exact congrArg Host.Outcome.next (if_pos h)
  · refine congrArg Host.Outcome.next ((if_neg (by simp [h])).trans ?_)
    exact tryAlign_starts (s := { s with resetLine := .released }) hd hf rfl hc
  · refine congrArg Host.Outcome.next ((if_neg (by simp [h])).trans ?_)
    refine tryAlign_waits (s := { s with resetLine := .released }) (h'.imp (fun lost => ?_) fun clearing => .inr ?_)
    · simp [lost]
    · rw [show ({ s with resetLine := .released } : State).storeClearing = true from clearing]
      decide

end Sys2Proof.Machine
end

section
/-!
PROOFS. DeferredCease.lean: a deferred cease completes in every kind of retirement (O27).
-/
namespace Sys2Proof.Machine

open Sys2Proof.Safety

variable {s : State} {p : PortNo} {e : EntryNo} {b : Binding} {tag : Nat}

/-! ## In a binding failure (R90, R181) -/

/-- A binding failure whose retirement completes a deferred cease, the binding in no ringing list. -/
theorem bindingFailure_completes {t : State} {more : List Message} (he : (s.entry e).binding = some b)
    (hw : s.waiting b.port = false) (hs : (s.slot b.slot).damaged = false) (hn : NotRinging s b.handle)
    (done : Completes (bindingLost (faulted s 1) e b) b.port (s.slot b.slot).handle t more) (held : Bool) :
    (voice held s [] []).bindingFailure e =
      voice held t [.clear (s.slot b.slot).handle .storeFault b.meterCount]
        ([.integrity .binding e.val (s.slot b.slot).handle] ++ more) := by
  have alone : NotRinging (faulted s 1) b.handle := hn
  rw [bindingFailure_alone (s := voice held s [] []) he hw]
  exact bindingActions_clears held [] _ he hs (leaves_none alone) done

/-! ## At a warm reset (R92) -/

theorem telling_unringing (s : State) (k : Nat) (ms : List Message) :
    telling (unringing s k) ms = unringing (telling s ms) k := by
  rw [telling_eq, telling_eq]
  rfl

theorem resetCabinet_ceases (hl : Listening s) (hq : Quiet s) (tag : Nat) (only : OnlyCall s p e b) (hr : InUse s p)
    (hc : Ceasing s p) :
    ∃ t, exec (.resetCabinet tag) s = .next t ∧
      t.line p = { LineRecord.initial with total := min ((s.line p).total + b.meterCount) 16777215 } ∧
      t.indexKey p = none ∧ t.port p = retiredVacant (s.port p) := by
  have acts := exec_resetCabinet hl tag
  have told : Quiet (telling s [.ack tag .ok]) := quiet_telling hq _
  rw [ack_quiet hq] at acts
  rw [telling_eq] at acts told
  let u : State := { s with out := said s [.ack tag .ok] }
  have left := warmReset_ceases (s := u) only (.inr hr.2) hc
  have quiet : Quiet u.warmReset := quiet_warmReset told
  rw [sendRestart_telling quiet, telling_eq] at acts
  refine ⟨_, acts, ?_⟩
  generalize u.warmReset = w at left ⊢
  exact left

/-! ## In every retirement -/

/-- Settles O27: the normal retirements, the binding failures, and the two events that retire every binding. -/
theorem deferredCeaseCompletes : Obligations.DeferredCeaseCompletes := by
  refine ⟨fun s e b hq n hr hc total ht told hm => ⟨fun hn => ⟨fun tag hl hp => ?_, fun tag hl hp => ⟨?_, fun c => ?_⟩,
      fun tag c hl hp => ?_, fun hp hx => ?_⟩, fun hp tag c hl t htt => ⟨fun last => ?_, fun rings reads => ?_⟩⟩,
    fun s tag e b hl hq hn hb hd hs hc hw i hi => ?_,
    fun s p e b hr hc only r hrr => ⟨fun k hl hk away => ?_, fun tag hl hq => ?_, fun hr' hc' => ?_⟩⟩
  · rw [hm, deny_retires hl hq n tag hp, retire_ceased (s := answering s []) hq (quits_none hn) hr hc e ht,
      telling_answering hl.1]
    rfl
  · rw [hm, cleared_retires hl hq n tag hp, retire_ceased (s := answering s []) hq (quits_none hn) hr hc e ht,
      telling_answering hl.1]
    rfl
  · rw [hm, clear_retires hl hq n tag c hp, retire_ceased (s := answering s []) hq (quits_none hn) hr hc e ht,
      telling_answering hl.1]
    rfl
  · rw [hm, clear_answers hl hq n tag c hp, retire_ceased (s := answering s _) hq (quits_none hn) hr hc e ht,
      telling_answering hl.1]
    rfl
  · rw [hm, expiry_retires n hp hx, retire_ceased (s := releaseTimedOut s) hq (quits_none hn) hr hc e ht, telling_eq,
      telling_eq]
    rfl
  · rw [htt, hm, clear_answers hl hq n tag c (by rcases hp with hp | hp <;> simp [hp]),
      retire_ceased (s := answering s _) hq (quits_last last) hr hc e ht, telling_unringing,
      telling_answering hl.1]
    rfl
  · have leavable : Leavable (answering s [.cleared tag b.handle b.meterCount]) b.handle := leavable_of_read (.inr reads)
    rw [htt, hm, clear_answers hl hq n tag c (by rcases hp with hp | hp <;> simp [hp]),
      retire_ceased (s := answering s _) hq (quits_leftRinging leavable) hr hc e ht, telling_leftRinging leavable,
      telling_answering hl.1, leftRinging_some (s := answering s _) rings]
    rfl
  · have he := (findBinding_found hb).1
    rw [handled_damaged hl hb hd hi, taken_voice hq]
    have ceasing : Ceasing (bindingLost (faulted { s with assembly := [] } 1) e b) b.port := hc
    refine ⟨fun good => ?_, fun damaged => ?_⟩
    · rw [bindingFailure_completes (s := { s with assembly := [] }) he hw hs hn (completes_good ceasing good) true,
        ack_release]
      exact congrArg _ (voice_answered hl hq
        (fun x => ceased (bindingLost (faulted x 1) e b) b.port (s.line b.port).total) (y := []) rfl)
    · rw [bindingFailure_completes (s := { s with assembly := [] }) he hw hs hn (completes_damaged ceasing damaged) true,
        ack_release]
      exact congrArg _ (voice_answered hl hq
        (fun x => quarantining (bindingLost (faulted x 1) e b) b.port) (y := []) rfl)
  · obtain ⟨line, key, leaves, _⟩ := linkLoss_elsewhere away
    obtain ⟨line', key', port', waiting'⟩ := emptied_ceases only (.inr hr.2) hc
    refine ⟨_, exec_lossHoldExpiry hl hk, ?_, key.trans key', linkLoss_out s, (leaves waiting').trans port'⟩
    rw [line, line', hrr]
  · rw [hrr]
    exact resetCabinet_ceases hl hq tag only hr hc
  · have left := warmReset_ceases (s := { s with resetLine := .asserted }) only (.inr hr.2) hc
    have out := warmReset_out { s with resetLine := .asserted }
    refine ⟨_, exec_resetLineAsserted hr' hc', ?_⟩
    generalize ({ s with resetLine := .asserted } : State).warmReset = w at left out ⊢
    obtain ⟨line, key, port⟩ := left
    exact ⟨hrr ▸ line, key, out, port⟩

end Sys2Proof.Machine
end
